-- ==== Sys2Proof/Word.lean ====
section
/-! DEFINITION. Word.lean: the plainest types of the HJV-480: a byte of a link frame, and the numbering of angles,
channels and stations (spec/00_scope.md, Setting). -/

namespace Sys2Proof

/-- One byte of a link frame. -/
abbrev Byte := BitVec 8

/-- A camera angle. The spec numbers angles 1 to 8: angle n is the index n − 1. -/
abbrev Angle := Fin 8

/-- A replay channel. The spec numbers channels 1 to 4: channel n is the index n − 1. -/
abbrev Chan := Fin 4

/-- A station and its control link, 0 (the automation station) to 4, numbered as in the spec. -/
abbrev Station := Fin 5

end Sys2Proof
end

