-- ==== Sys2Proof/Syntax.lean ====
section
/-! DEFINITION. Syntax.lean: the commands of the block, one constructor of `Instr` per row of spec/opcode_table.json,
with the operands chapter 11 gives the message concerned or the item the event names. The table gives no row any bits. -/

namespace Sys2Proof

/-- The held alerts of R172, by scope. REF_LOST is no held alert: it follows the reference state (R9). -/
inductive Alert where
  | starved (a : Angle)
  | missing (a : Angle)
  | writeFault (a : Angle)
  | absent (a : Angle)
  | readFault (c : Chan)
  | fitLimited (c : Chan)
  | cueSkipped (c : Chan)
  | keyIgnored
  deriving DecidableEq, Repr

/-- The reactions to one house frame event that R1 leaves without an order. A link controller's watch (R163, R164) and
its report with the lowering of the alert timers (R171, R172) are two of them. -/
inductive Reaction where
  | recorder
  | channel (c : Chan)
  | arbiter
  | linkWatch (k : Station)
  | linkReport (k : Station)
  deriving DecidableEq, Repr

/-- One byte arriving on a receive line, and whether it came with a framing error (R162). -/
structure RxByte where
  value : Byte
  framingError : Bool
  deriving DecidableEq, Repr

/-- The mode and value of PLAY, LOAD CLIP and CUE ADD (11.3): none, a speed (FIXED), or a duration (FIT). -/
inductive Pace where
  | none
  | speed (grains : BitVec 16)
  | duration (houseFrames : BitVec 16)
  deriving DecidableEq, Repr

/-- The filter of a LIST (R173). -/
inductive Filter where
  | all
  | own
  | tag (code : Byte)
  deriving DecidableEq, Repr

/-- The commands of the block, one constructor per row of spec/opcode_table.json. `stn` is the station that sends a
command message; message fields have the widths of 11.3 and port words those of 11.4. A `moment` is a time in fifths of
a link clock period, and `order` the order in which the blocks react if the command gives a house frame event. -/
inductive Instr where
  | hardwareReset (moment : Nat)
  | referencePulse (moment : Nat) (order : List Reaction)
  | timerEvent (order : List Reaction)
  | referenceLoss (order : List Reaction)
  | angleAbsent (a : Angle)
  | arrivalNotice (angle : BitVec 4) (stamp : BitVec 16) (phase : BitVec 3)
  | writeCompletion (angle : BitVec 4) (slot : BitVec 20) (status : BitVec 2)
  | scanVisit
  | fetchCompletion (channel : BitVec 3) (tag : BitVec 8) (status : BitVec 2)
  | coolDownEnd (stn : Station) (c : Chan)
  | claimTimeout (stn : Station)
  | linkLoss (k : Station)
  | graceExpiry (k : Station)
  | alertTimerExpiry (k : Station) (alert : Alert)
  | interbyteTimeout (k : Station) (moment : Nat) (order : List Reaction)
  | deskFrame (k : Station) (bytes : List RxByte) (moment : Nat) (order : List Reaction)
  | markIn (stn : Station)
  | markOut (stn : Station)
  | protect (stn : Station) (id serial : BitVec 16)
  | unprotect (stn : Station) (id serial : BitVec 16)
  | delete (stn : Station) (id serial : BitVec 16)
  | label (stn : Station) (id serial : BitVec 16) (text : List (BitVec 7))
  | tagAdd (stn : Station) (id serial : BitVec 16) (tag : Byte)
  | tagRemove (stn : Station) (id serial : BitVec 16) (tag : Byte)
  | hero (stn : Station) (id serial : BitVec 16) (angle : Byte)
  | play (stn : Station) (channel : Byte) (pace : Pace)
  | pause (stn : Station) (channel : Byte)
  | live (stn : Station) (channel : Byte)
  | load (stn : Station) (channel angle : Byte) (houseFrame : BitVec 32)
  | angle (stn : Station) (channel angle : Byte)
  | unload (stn : Station) (channel : Byte)
  | black (stn : Station) (channel : Byte)
  | unblack (stn : Station) (channel : Byte)
  | gang (stn : Station) (leader : Byte) (followers : List Byte)
  | ungang (stn : Station) (channel : Byte)
  | loadClip (stn : Station) (channel : Byte) (id serial : BitVec 16) (angle : Byte) (pace : Pace)
  | cueAdd (stn : Station) (channel : Byte) (id serial : BitVec 16) (angle : Byte) (pace : Pace)
  | cueClear (stn : Station) (channel : Byte)
  | cueNext (stn : Station) (channel : Byte)
  | claim (stn : Station) (channel : Byte)
  | cancel (stn : Station)
  | release (stn : Station) (channel : Byte)
  | select (stn : Station) (channel : Byte)
  | cut (stn : Station) (channel : Byte)
  | preview (stn : Station) (channel : Byte)
  | take (stn : Station)
  | forceRelease (stn : Station) (channel : Byte)
  | list (stn : Station) (filter : Filter)
  | angleSet (stn : Station) (angle rateMultiple : Byte) (quota : BitVec 16)
  | recStart (stn : Station) (angle : Byte)
  | recStop (stn : Station) (angle : Byte)
  | houseRate (stn : Station) (hundredths : BitVec 16) (moment : Nat) (order : List Reaction)
  | curveSet (stn : Station) (points : List (BitVec 16))
  | linkSet (stn : Station) (k enable divisor : Byte)
  | stationSet (stn : Station) (target markSet : Byte) (preroll preset : BitVec 16) (blend : Byte)
  | statsTimeBase (stn : Station) (index : Byte) (clear part : Bool)
  | statsRecorder (stn : Station) (index : Byte) (clear part : Bool)
  | statsPageStore (stn : Station) (index : Byte) (clear part : Bool)
  | statsChannel (stn : Station) (index : Byte) (clear part : Bool)
  | statsLink (stn : Station) (index : Byte) (clear part : Bool)
  | restart (stn : Station)
  | reportTransmissionEnd (k : Station)
  | resetLineHeld
  deriving DecidableEq, Repr

end Sys2Proof
end

