-- ==== Sys2Proof/WellFormed.lean ====
section
/-! DEFINITION. WellFormed.lean: what a command must satisfy to be one that can reach the block: the number of its
arguments fits its message (R187), and an order of reactions names no reaction twice. Field widths are in the types. -/

namespace Sys2Proof

/-- An order of reactions names no reaction twice. -/
def orderWf (order : List Reaction) : Bool := decide order.Nodup

/-- The commands that can reach the block. GANG carries one to three followers and CURVE SET eleven points (R187). A
LABEL message of at most 28 bytes has room for 25 characters (R185, R187). -/
def Instr.wf : Instr → Bool
  | .hardwareReset _ => true
  | .referencePulse _ order => orderWf order
  | .timerEvent order => orderWf order
  | .referenceLoss order => orderWf order
  | .angleAbsent _ => true
  | .arrivalNotice _ _ _ => true
  | .writeCompletion _ _ _ => true
  | .scanVisit => true
  | .fetchCompletion _ _ _ => true
  | .coolDownEnd _ _ => true
  | .claimTimeout _ => true
  | .linkLoss _ => true
  | .graceExpiry _ => true
  | .alertTimerExpiry _ _ => true
  | .interbyteTimeout _ _ order => orderWf order
  | .deskFrame _ _ _ order => orderWf order
  | .markIn _ => true
  | .markOut _ => true
  | .protect _ _ _ => true
  | .unprotect _ _ _ => true
  | .delete _ _ _ => true
  | .label _ _ _ text => decide (text.length ≤ 25)
  | .tagAdd _ _ _ _ => true
  | .tagRemove _ _ _ _ => true
  | .hero _ _ _ _ => true
  | .play _ _ _ => true
  | .pause _ _ => true
  | .live _ _ => true
  | .load _ _ _ _ => true
  | .angle _ _ _ => true
  | .unload _ _ => true
  | .black _ _ => true
  | .unblack _ _ => true
  | .gang _ _ followers => decide (1 ≤ followers.length ∧ followers.length ≤ 3)
  | .ungang _ _ => true
  | .loadClip _ _ _ _ _ _ => true
  | .cueAdd _ _ _ _ _ _ => true
  | .cueClear _ _ => true
  | .cueNext _ _ => true
  | .claim _ _ => true
  | .cancel _ => true
  | .release _ _ => true
  | .select _ _ => true
  | .cut _ _ => true
  | .preview _ _ => true
  | .take _ => true
  | .forceRelease _ _ => true
  | .list _ _ => true
  | .angleSet _ _ _ _ => true
  | .recStart _ _ => true
  | .recStop _ _ => true
  | .houseRate _ _ _ order => orderWf order
  | .curveSet _ points => decide (points.length = 11)
  | .linkSet _ _ _ _ => true
  | .stationSet _ _ _ _ _ _ => true
  | .statsTimeBase _ _ _ _ => true
  | .statsRecorder _ _ _ _ => true
  | .statsPageStore _ _ _ _ => true
  | .statsChannel _ _ _ _ => true
  | .statsLink _ _ _ _ => true
  | .restart _ => true
  | .reportTransmissionEnd _ => true
  | .resetLineHeld => true

end Sys2Proof
end

