-- ==== Sys2Proof/Decode.lean ====
section
/-! DEFINITION. Decode.lean: the commands that words and messages spell. The opcode table gives no row any bits, so
`decodeTableWord` answers none. Below it: the 64-bit words of the two ports (11.4) and the command messages of desk
frames (11.3, R187), decoded and then encoded. -/

namespace Sys2Proof

/-- The command a word spells by the table's bits. No row of spec/opcode_table.json gives any bits, so no word spells one
(notes/assumptions/23.md). -/
def decodeTableWord (_nbits _w : Nat) : Option Instr := none

/-! ### Port words (11.4) -/

/-- The command an ingest word brings; a word of type 0 or 3 is taken and discarded (11.4). -/
def decodeIngestWord (w : BitVec 64) : Option Instr :=
  if w.extractLsb' 62 2 = 1 then
    some (.arrivalNotice (w.extractLsb' 58 4) (w.extractLsb' 39 16) (w.extractLsb' 55 3))
  else if w.extractLsb' 62 2 = 2 then
    some (.writeCompletion (w.extractLsb' 58 4) (w.extractLsb' 38 20) (w.extractLsb' 36 2))
  else none

/-- The command a fetch port word brings (11.4). -/
def decodeFetchWord (w : BitVec 64) : Instr :=
  .fetchCompletion (w.extractLsb' 61 3) (w.extractLsb' 53 8) (w.extractLsb' 51 2)

/-- The word of an arrival notice, a write completion or a fetch completion, unlisted low bits 0 (11.4). -/
def encodePortWord : Instr → Option (BitVec 64)
  | .arrivalNotice angle stamp phase => some (1#2 ++ angle ++ phase ++ stamp ++ 0#39)
  | .writeCompletion angle slot status => some (2#2 ++ angle ++ slot ++ status ++ 0#36)
  | .fetchCompletion channel tag status => some (channel ++ tag ++ status ++ 0#51)
  | _ => none

/-! ### Command kinds (9.5, 11.3) -/

/-- The commands of the catalogue (section 9.5). -/
inductive CommandKind where
  | markIn | markOut | protect | unprotect | delete | label | tagAdd | tagRemove | hero
  | play | pause | live | load | angle | unload | black | unblack | gang | ungang
  | loadClip | cueAdd | cueClear | cueNext
  | claim | cancel | release | select | cut | preview | take | forceRelease
  | list
  | angleSet | recStart | recStop | houseRate | curveSet | linkSet | stationSet | stats | restart
  deriving DecidableEq, Repr

/-- The kind code of a command (11.3). -/
def CommandKind.code : CommandKind → Nat
  | .markIn => 1
  | .markOut => 2
  | .protect => 3
  | .unprotect => 4
  | .delete => 5
  | .label => 6
  | .tagAdd => 7
  | .tagRemove => 8
  | .hero => 9
  | .play => 16
  | .pause => 17
  | .live => 18
  | .load => 19
  | .angle => 20
  | .unload => 21
  | .black => 22
  | .unblack => 23
  | .gang => 24
  | .ungang => 25
  | .loadClip => 32
  | .cueAdd => 33
  | .cueClear => 34
  | .cueNext => 35
  | .claim => 48
  | .cancel => 49
  | .release => 50
  | .select => 51
  | .cut => 52
  | .preview => 53
  | .take => 54
  | .forceRelease => 55
  | .list => 64
  | .angleSet => 80
  | .recStart => 81
  | .recStop => 82
  | .houseRate => 83
  | .curveSet => 84
  | .linkSet => 85
  | .stationSet => 86
  | .stats => 87
  | .restart => 88

/-- The catalogue of section 9.5. -/
def catalogue : List CommandKind :=
  [.markIn, .markOut, .protect, .unprotect, .delete, .label, .tagAdd, .tagRemove, .hero,
   .play, .pause, .live, .load, .angle, .unload, .black, .unblack, .gang, .ungang,
   .loadClip, .cueAdd, .cueClear, .cueNext,
   .claim, .cancel, .release, .select, .cut, .preview, .take, .forceRelease,
   .list, .angleSet, .recStart, .recStop, .houseRate, .curveSet, .linkSet, .stationSet, .stats, .restart]

/-- The command of a kind code, if it is in the catalogue (R169). -/
def CommandKind.ofCode? (n : Nat) : Option CommandKind := catalogue.find? fun k => k.code = n

/-- The commands the catalogue reserves to station 0 (section 9.5). -/
def CommandKind.isReserved : CommandKind → Bool
  | .forceRelease | .angleSet | .recStart | .recStop | .houseRate | .curveSet | .linkSet | .stationSet | .stats
  | .restart => true
  | _ => false

/-! ### Labels (R187) -/

/-- The bits of a value, most significant first. -/
def bitsOf {n : Nat} (x : BitVec n) : List Bool := (List.range n).map fun i => x.getMsbD i

/-- The first `n` bits of a list as a value, most significant first; missing bits are zero. -/
def ofBits (n : Nat) (bits : List Bool) : BitVec n :=
  BitVec.ofNat n ((List.range n).foldl (fun acc i => 2 * acc + (bits.getD i false).toNat) 0)

/-- The bytes a text of `count` characters fills (R187). -/
def textBytes (count : Nat) : Nat := (count * 7 + 7) / 8

/-- The first `count` groups of `n` bits of a list of bits. -/
def groups (n : Nat) : Nat → List Bool → List (BitVec n)
  | 0, _ => []
  | count + 1, bits => ofBits n bits :: groups n count (bits.drop n)

/-- The text of 7-bit codes packed most significant bit first (R187). -/
def unpackText (count : Nat) (bytes : List Byte) : List (BitVec 7) := groups 7 count (bytes.flatMap bitsOf)

/-- A text packed most significant bit first, the last byte padded with zero bits (R187). -/
def packText (text : List (BitVec 7)) : List Byte := groups 8 (textBytes text.length) (text.flatMap bitsOf)

/-! ### Command messages (11.3) -/

/-- What the arguments of a message of a known kind spell: a command row, arguments whose number or size does not fit the
kind or whose mode or filter code is outside its row (R169, R187), or a STATS on a block outside the table (R182). -/
inductive Message where
  | row (i : Instr)
  | unfit
  | unknownBlock
  deriving DecidableEq, Repr

/-- The mode byte and value of PLAY, LOAD CLIP and CUE ADD; a mode code outside its row does not fit (R187). -/
def decodePace (mode hi lo : Byte) : Option Pace :=
  if mode = 0 then some .none
  else if mode = 1 then some (.speed (hi ++ lo))
  else if mode = 2 then some (.duration (hi ++ lo))
  else none

/-- The filter and tag bytes of LIST; a filter code outside its row does not fit (R187). -/
def decodeFilter (filter tag : Byte) : Option Filter :=
  if filter = 0 then some .all
  else if filter = 1 then some .own
  else if filter = 2 then some (.tag tag)
  else none

/-- Bytes taken two at a time, high byte first. -/
def words : List Byte → List (BitVec 16)
  | hi :: lo :: rest => (hi ++ lo) :: words rest
  | _ => []

/-- The option byte of STATS: clear in bit 0, part in bit 1 (R187). -/
def decodeStats (stn : Station) (block index opt : Byte) : Message :=
  let clear := opt.getLsbD 0
  let part := opt.getLsbD 1
  if block = 1 then .row (.statsTimeBase stn index clear part)
  else if block = 2 then .row (.statsRecorder stn index clear part)
  else if block = 3 then .row (.statsPageStore stn index clear part)
  else if block = 4 then .row (.statsChannel stn index clear part)
  else if block = 5 then .row (.statsLink stn index clear part)
  else .unknownBlock

/-- The message of a command row, or `unfit` where there is none. -/
def Message.ofOption : Option Instr → Message
  | some i => .row i
  | none => .unfit

/-- The command a message of station `stn` spells: its kind and its argument bytes, exactly those the kind takes (11.3,
R187). `moment` and `order` go with the desk frame that carries it. -/
def decodeMessage (stn : Station) (moment : Nat) (order : List Reaction) :
    CommandKind → List Byte → Message
  | .markIn, [] => .row (.markIn stn)
  | .markOut, [] => .row (.markOut stn)
  | .protect, [i1, i0, s1, s0] => .row (.protect stn (i1 ++ i0) (s1 ++ s0))
  | .unprotect, [i1, i0, s1, s0] => .row (.unprotect stn (i1 ++ i0) (s1 ++ s0))
  | .delete, [i1, i0, s1, s0] => .row (.delete stn (i1 ++ i0) (s1 ++ s0))
  | .label, i1 :: i0 :: s1 :: s0 :: count :: text =>
    if text.length = textBytes count.toNat then
      .row (.label stn (i1 ++ i0) (s1 ++ s0) (unpackText count.toNat text))
    else .unfit
  | .tagAdd, [i1, i0, s1, s0, t] => .row (.tagAdd stn (i1 ++ i0) (s1 ++ s0) t)
  | .tagRemove, [i1, i0, s1, s0, t] => .row (.tagRemove stn (i1 ++ i0) (s1 ++ s0) t)
  | .hero, [i1, i0, s1, s0, a] => .row (.hero stn (i1 ++ i0) (s1 ++ s0) a)
  | .play, [c, m, hi, lo] => .ofOption ((decodePace m hi lo).map (Instr.play stn c))
  | .pause, [c] => .row (.pause stn c)
  | .live, [c] => .row (.live stn c)
  | .load, [c, a, h3, h2, h1, h0] => .row (.load stn c a (h3 ++ h2 ++ h1 ++ h0))
  | .angle, [c, a] => .row (.angle stn c a)
  | .unload, [c] => .row (.unload stn c)
  | .black, [c] => .row (.black stn c)
  | .unblack, [c] => .row (.unblack stn c)
  | .gang, [l, f] => .row (.gang stn l [f])
  | .gang, [l, f, g] => .row (.gang stn l [f, g])
  | .gang, [l, f, g, h] => .row (.gang stn l [f, g, h])
  | .ungang, [c] => .row (.ungang stn c)
  | .loadClip, [c, i1, i0, s1, s0, a, m, hi, lo] =>
    .ofOption ((decodePace m hi lo).map (Instr.loadClip stn c (i1 ++ i0) (s1 ++ s0) a))
  | .cueAdd, [c, i1, i0, s1, s0, a, m, hi, lo] =>
    .ofOption ((decodePace m hi lo).map (Instr.cueAdd stn c (i1 ++ i0) (s1 ++ s0) a))
  | .cueClear, [c] => .row (.cueClear stn c)
  | .cueNext, [c] => .row (.cueNext stn c)
  | .claim, [c] => .row (.claim stn c)
  | .cancel, [] => .row (.cancel stn)
  | .release, [c] => .row (.release stn c)
  | .select, [c] => .row (.select stn c)
  | .cut, [c] => .row (.cut stn c)
  | .preview, [c] => .row (.preview stn c)
  | .take, [] => .row (.take stn)
  | .forceRelease, [c] => .row (.forceRelease stn c)
  | .list, [f, t] => .ofOption ((decodeFilter f t).map (Instr.list stn))
  | .angleSet, [a, m, q1, q0] => .row (.angleSet stn a m (q1 ++ q0))
  | .recStart, [a] => .row (.recStart stn a)
  | .recStop, [a] => .row (.recStop stn a)
  | .houseRate, [r1, r0] => .row (.houseRate stn (r1 ++ r0) moment order)
  | .curveSet, points => if points.length = 22 then .row (.curveSet stn (words points)) else .unfit
  | .linkSet, [k, e, d] => .row (.linkSet stn k e d)
  | .stationSet, [t, a, p1, p0, q1, q0, b] => .row (.stationSet stn t a (p1 ++ p0) (q1 ++ q0) b)
  | .stats, [block, index, opt] => decodeStats stn block index opt
  | .restart, [] => .row (.restart stn)
  | _, _ => .unfit

/-! ### Command messages encoded -/

/-- The high and the low byte of a 16-bit field. -/
def bytes16 (x : BitVec 16) : List Byte := [x.extractLsb' 8 8, x.extractLsb' 0 8]

/-- The four bytes of a 32-bit field, high byte first. -/
def bytes32 (x : BitVec 32) : List Byte :=
  [x.extractLsb' 24 8, x.extractLsb' 16 8, x.extractLsb' 8 8, x.extractLsb' 0 8]

/-- The mode and value bytes of a speed mode (11.3). -/
def encodePace : Pace → List Byte
  | .none => [0, 0, 0]
  | .speed v => 1 :: bytes16 v
  | .duration d => 2 :: bytes16 d

/-- The filter and tag bytes of a listing (11.3). -/
def encodeFilter : Filter → List Byte
  | .all => [0, 0]
  | .own => [1, 0]
  | .tag t => [2, t]

/-- The option byte of STATS (R187). -/
def encodeOption (clear part : Bool) : Byte := BitVec.ofNat 8 (clear.toNat + 2 * part.toNat)

/-- The kind and the argument bytes of a command row, for the rows that are command messages (11.3). -/
def encodeMessage : Instr → Option (CommandKind × List Byte)
  | .markIn _ => some (.markIn, [])
  | .markOut _ => some (.markOut, [])
  | .protect _ id serial => some (.protect, bytes16 id ++ bytes16 serial)
  | .unprotect _ id serial => some (.unprotect, bytes16 id ++ bytes16 serial)
  | .delete _ id serial => some (.delete, bytes16 id ++ bytes16 serial)
  | .label _ id serial text =>
    some (.label, bytes16 id ++ bytes16 serial ++ BitVec.ofNat 8 text.length :: packText text)
  | .tagAdd _ id serial tag => some (.tagAdd, bytes16 id ++ bytes16 serial ++ [tag])
  | .tagRemove _ id serial tag => some (.tagRemove, bytes16 id ++ bytes16 serial ++ [tag])
  | .hero _ id serial angle => some (.hero, bytes16 id ++ bytes16 serial ++ [angle])
  | .play _ c pace => some (.play, c :: encodePace pace)
  | .pause _ c => some (.pause, [c])
  | .live _ c => some (.live, [c])
  | .load _ c a h => some (.load, c :: a :: bytes32 h)
  | .angle _ c a => some (.angle, [c, a])
  | .unload _ c => some (.unload, [c])
  | .black _ c => some (.black, [c])
  | .unblack _ c => some (.unblack, [c])
  | .gang _ l fs => some (.gang, l :: fs)
  | .ungang _ c => some (.ungang, [c])
  | .loadClip _ c id serial a pace => some (.loadClip, c :: (bytes16 id ++ bytes16 serial ++ a :: encodePace pace))
  | .cueAdd _ c id serial a pace => some (.cueAdd, c :: (bytes16 id ++ bytes16 serial ++ a :: encodePace pace))
  | .cueClear _ c => some (.cueClear, [c])
  | .cueNext _ c => some (.cueNext, [c])
  | .claim _ c => some (.claim, [c])
  | .cancel _ => some (.cancel, [])
  | .release _ c => some (.release, [c])
  | .select _ c => some (.select, [c])
  | .cut _ c => some (.cut, [c])
  | .preview _ c => some (.preview, [c])
  | .take _ => some (.take, [])
  | .forceRelease _ c => some (.forceRelease, [c])
  | .list _ f => some (.list, encodeFilter f)
  | .angleSet _ a m q => some (.angleSet, a :: m :: bytes16 q)
  | .recStart _ a => some (.recStart, [a])
  | .recStop _ a => some (.recStop, [a])
  | .houseRate _ r _ _ => some (.houseRate, bytes16 r)
  | .curveSet _ points => some (.curveSet, points.flatMap bytes16)
  | .linkSet _ k e d => some (.linkSet, [k, e, d])
  | .stationSet _ t m p q b => some (.stationSet, t :: m :: (bytes16 p ++ bytes16 q ++ [b]))
  | .statsTimeBase _ i clear part => some (.stats, [1, i, encodeOption clear part])
  | .statsRecorder _ i clear part => some (.stats, [2, i, encodeOption clear part])
  | .statsPageStore _ i clear part => some (.stats, [3, i, encodeOption clear part])
  | .statsChannel _ i clear part => some (.stats, [4, i, encodeOption clear part])
  | .statsLink _ i clear part => some (.stats, [5, i, encodeOption clear part])
  | .restart _ => some (.restart, [])
  | _ => none

/-- The station that sends a command row (9.5). -/
def Instr.sender : Instr → Option Station
  | .markIn k | .markOut k | .protect k _ _ | .unprotect k _ _ | .delete k _ _ | .label k _ _ _ | .tagAdd k _ _ _
  | .tagRemove k _ _ _ | .hero k _ _ _ | .play k _ _ | .pause k _ | .live k _ | .load k _ _ _ | .angle k _ _
  | .unload k _ | .black k _ | .unblack k _ | .gang k _ _ | .ungang k _ | .loadClip k _ _ _ _ _
  | .cueAdd k _ _ _ _ _ | .cueClear k _ | .cueNext k _ | .claim k _ | .cancel k | .release k _ | .select k _
  | .cut k _ | .preview k _ | .take k | .forceRelease k _ | .list k _ | .angleSet k _ _ _ | .recStart k _
  | .recStop k _ | .houseRate k _ _ _ | .curveSet k _ | .linkSet k _ _ _ | .stationSet k _ _ _ _ _
  | .statsTimeBase k _ _ _ | .statsRecorder k _ _ _ | .statsPageStore k _ _ _ | .statsChannel k _ _ _
  | .statsLink k _ _ _ | .restart k => some k
  | _ => none

end Sys2Proof
end

