-- ==== Sys2Proof/Config.lean ====
section
/-! DEFINITION. Config.lean: the free values: bytes that chapter 11 lays out and no rule gives a value. -/

namespace Sys2Proof.Config

/-- The places of chapter 11's layouts whose byte the spec states no value for (notes/assumptions/9.md). -/
inductive Unstated where
  /-- The kind byte of a report whose ack area is empty (R165, 11.1). -/
  | ackKind
  /-- The result byte of a report whose ack area holds no result (R165, R170, 11.1). -/
  | ackResult
  /-- The channel byte of a CANCEL that ended no claim (R152, 11.2). -/
  | cancelChannel
  /-- Byte `i` of the fit terms of a LOAD CLIP in FIXED (R114, 11.2). -/
  | fixedFitTerm (i : Nat)
  /-- Byte `i` of the first (`place` 0) or second frame number of an answer whose presence byte gives it as absent
  (11.2). -/
  | absentFrame (place i : Nat)
  /-- The last shown tag byte when there is none (11.2). -/
  | lastShownTag
  deriving DecidableEq, Repr

/-- FREE VALUE (DESIGN CHOICE, notes/assumptions/9.md): the byte the part puts at such a place at the `draw`-th drawing.
It has no body, so nothing can be proved of its value. -/
opaque unstatedByte : Unstated → Nat → Byte

end Sys2Proof.Config
end

