-- ==== Sys2Proof/Machine/State.lean ====
section
/-! DEFINITION. Machine/State.lean: every piece of state the spec gives the HJV-480, as plain data, the closed reasons of
a fault and of a refusal, and the state after hardware reset. Operations on it are in Machine/Ops.lean. -/

namespace Sys2Proof.Machine

/-! ### Time base (R2 to R11) -/

/-- Whether house frame events follow the reference pulses or the internal timer (R3 to R7). -/
inductive RefState where
  | locked
  | free
  deriving DecidableEq, Repr

/-- The configured house rate, 50 or 59.94 frames per second (R8). -/
inductive HouseRate where
  | fps50
  | fps5994
  deriving DecidableEq, Repr

/-- The state of the time base (section 1.2). Moments are counted in fifths of a link clock period. -/
structure TimeBase where
  ref : RefState
  rate : HouseRate
  houseCount : Nat
  qualifyingRun : Nat
  lastPulse : Option Nat
  lastEvent : Nat
  /-- The place, 0 to 4, of the running period in the five-period pattern of R5. -/
  timerPlace : Nat
  lossCount : Nat
  relockCount : Nat
  unqualifiedCount : Nat
  deriving DecidableEq, Repr

/-! ### Recorder (R14 to R34) -/

/-- The record state of an angle (R14 to R16). -/
inductive RecState where
  | stopped
  | recording
  | halted
  deriving DecidableEq, Repr

/-- A granted write whose completion has not been taken (section 2.1). -/
structure PendingWrite where
  slot : Nat
  page : Nat
  frame : Nat
  deriving DecidableEq, Repr

/-- The counts of an angle, in the order of the table of R32. -/
structure RecCounts where
  grants : Nat
  formatRefusals : Nat
  notRecordingRefusals : Nat
  staleRefusals : Nat
  overrunRefusals : Nat
  starvedRefusals : Nat
  missing : Nat
  completions : Nat
  writeFaults : Nat
  portFaults : Nat
  absences : Nat
  deriving DecidableEq, Repr

/-- The record context of an angle (section 2.1). -/
structure RecContext where
  state : RecState
  rateMultiple : Nat
  quota : Nat
  expected : Option Nat
  newest : Option Nat
  pendingWrites : List PendingWrite
  liveEdge : Option Nat
  present : Bool
  silence : Nat
  counts : RecCounts
  deriving DecidableEq, Repr

/-- The kinds of refusal of an arrival notice (R18). -/
inductive RefusalKind where
  | format
  | notRecording
  | stale
  | overrun
  | starved
  deriving DecidableEq, Repr

/-- An answer on the ingest port: a write grant or a refusal (R18). -/
inductive IngestAnswer where
  | grant (angle : BitVec 4) (phase : BitVec 3) (stamp : BitVec 16) (slot : Nat) (houseLow : Nat)
  | refusal (angle : BitVec 4) (phase : BitVec 3) (stamp : BitVec 16) (kind : RefusalKind) (houseLow : Nat)
  deriving DecidableEq, Repr

/-! ### Page store (R35 to R59) -/

/-- The three states of a page record (R35). -/
inductive PageState where
  | free
  | filling
  | sealed
  deriving DecidableEq, Repr

/-- The record of one page (section 3.1), with the four parts of its hold count (R37). -/
structure Page where
  number : Nat
  state : PageState
  firstFrame : Nat
  count : Nat
  /-- The faulted slot indices, ascending. -/
  faulted : List Nat
  clipHolds : Nat
  anchorPins : Nat
  fetchHolds : Nat
  writeHolds : Nat
  deriving DecidableEq, Repr

/-- Whether a hold scan adds or releases clip holds (R53). -/
inductive ScanKind where
  | add
  | remove
  deriving DecidableEq, Repr

/-- The visit rules of R52. -/
inductive VisitRule where
  | cover
  | lead
  | tail
  deriving DecidableEq, Repr

/-- What a scan keeps for one angle: its bound and its progress point (R53). -/
structure ScanAngle where
  angle : Angle
  bound : Option Nat
  progress : Option Nat
  deriving DecidableEq, Repr

/-- A hold scan request (R53). `angles` lists, ascending, the angles the scan has not finished; an absent `stop` is an
open end. -/
structure Scan where
  clipId : Nat
  serial : Nat
  kind : ScanKind
  rule : VisitRule
  angles : List ScanAngle
  start : Nat
  stop : Option Nat
  headAtOnce : Bool
  deriving DecidableEq, Repr

/-- The page store. The records of the FILLING and SEALED pages stand in the record list of their angle, oldest first;
a FREE page's record is fixed by R45 and R58 and its place in the pool stands for it (notes/assumptions/7.md). -/
structure PageStore where
  pool : List Nat
  lists : Vector (List Page) 8
  scans : List Scan
  reclaimed : Vector Nat 8
  starvations : Vector Nat 8
  mismatches : Nat
  deriving DecidableEq, Repr

/-! ### Clip table (R60 to R84) -/

/-- The states of a clip (section 4.2). -/
inductive ClipState where
  | opened
  | closing
  | closed
  | retiring
  | deleting
  deriving DecidableEq, Repr

/-- A clip record (section 4.1). The angle set is ascending. -/
structure Clip where
  id : Nat
  serial : Nat
  state : ClipState
  owner : Station
  angles : List Angle
  inMark : Nat
  outMark : Option Nat
  isProtected : Bool
  hero : Angle
  label : List (BitVec 7)
  tags : List Byte
  useCount : Nat
  scansPending : Nat
  trimmed : Bool
  deriving DecidableEq, Repr

/-- The clip table: the present clips by ascending id, and its own three items (section 4.1). `raised` is the model's own:
whether the event being taken has already raised the generation (R62, notes/assumptions/11.md). -/
structure ClipTable where
  clips : List Clip
  serialCounter : Nat
  generation : Nat
  openCounts : Vector Nat 8
  raised : Bool
  deriving DecidableEq, Repr

/-! ### Replay channels (R85 to R145) -/

/-- The speed mode of a clip context, FIXED s, or FIT D with its terms q, r and e (section 6.1). -/
inductive SpeedMode where
  | fixed (speed : Int)
  | fit (duration base rest error : Nat)
  deriving DecidableEq, Repr

/-- The clip context of a channel in CLIP (section 6.1). -/
structure ClipContext where
  clipId : Nat
  serial : Nat
  running : Bool
  endReached : Bool
  mode : SpeedMode
  deriving DecidableEq, Repr

/-- The states of a channel other than IDLE (section 5.1); CLIP carries its context. -/
inductive Mode where
  | live
  | paused
  | shuttle
  | play
  | clip (context : ClipContext)
  | follow
  deriving DecidableEq, Repr

/-- What a channel that is not IDLE has (R85). -/
structure Playhead where
  mode : Mode
  angle : Angle
  position : Nat
  speed : Int
  clamp : Bool
  anchor : Option Nat
  deriving DecidableEq, Repr

/-- The gang role of a channel (section 5.10). -/
inductive GangRole where
  | none
  | leader (followers : List Chan)
  | follower (leader : Chan)
  deriving DecidableEq, Repr

/-- The speed mode of a queued cue (section 6.6). -/
inductive CuePace where
  | fixed (speed : Int)
  | fit (duration : Nat)
  deriving DecidableEq, Repr

/-- A cue (section 6.6). -/
structure Cue where
  clipId : Nat
  serial : Nat
  angle : Option Angle
  pace : CuePace
  deriving DecidableEq, Repr

/-- An entry of a channel's fetches in flight (R130). -/
structure FetchEntry where
  tag : Nat
  black : Bool
  pageA : Option Nat
  pageB : Option Nat
  superseded : Bool
  deriving DecidableEq, Repr

/-- The counts of a channel, in the order of R130. -/
structure ChanCounts where
  issued : Nat
  lateSkips : Nat
  unshown : Nat
  readFaults : Nat
  stale : Nat
  unmatched : Nat
  fitLimited : Nat
  cueSkips : Nat
  deriving DecidableEq, Repr

/-- A replay channel: its record (section 5.1), its cue queue (section 6.6) and its fetch state (R130). A channel without
a playhead is IDLE. -/
structure Channel where
  head : Option Playhead
  gang : GangRole
  black : Bool
  cues : List Cue
  staged : Bool
  inFlight : List FetchEntry
  nextTag : Nat
  lastShown : Option Nat
  frameValid : Bool
  counts : ChanCounts
  deriving DecidableEq, Repr

/-- A fetch request (section 7.4). -/
structure FetchRequest where
  channel : Chan
  tag : Nat
  slotA : Option Nat
  slotB : Option Nat
  weight : Nat
  black : Bool
  deriving DecidableEq, Repr

/-! ### Claims and routing (R146 to R160) -/

/-- A pending claim: the channel asked for and the age in house frames (section 8.3). -/
structure PendingClaim where
  channel : Chan
  age : Nat
  deriving DecidableEq, Repr

/-- The claim arbiter and program selector. `coolDown` holds, for each station and channel, the unclaimed run of the
cool-down entry of that pair, if there is one (section 8.3). -/
structure Arbiter where
  holders : Vector (Option Station) 4
  claims : Vector (Option PendingClaim) 5
  coolDown : Vector (Vector (Option Nat) 4) 5
  pgm : Chan
  pvw : Chan
  deriving DecidableEq, Repr

/-! ### Control links (R161 to R175) -/

/-- The states of a link (section 9.3). -/
inductive LinkState where
  | off
  | down
  | up
  | lost
  deriving DecidableEq, Repr

/-- The state of a key (R167). -/
inductive KeyState where
  | ready
  | pressed
  | spent
  deriving DecidableEq, Repr

/-- The command state of an ack area (R170). -/
inductive CommandState where
  | idle
  | inProgress
  | done
  deriving DecidableEq, Repr

/-- The result codes of R170. -/
inductive Result where
  | ok
  | busy
  | notAllowed
  | notClaimed
  | claimed
  | notOwner
  | noClip
  | clipBusy
  | wrongState
  | tableFull
  | noMaterial
  | held
  | badArgument
  | unknownCommand
  | timeout
  | cancelled
  | nothingPending
  | queueFull
  | listFull
  deriving DecidableEq, Repr

/-- The ack area of a link, less its toggle, which is the toggle seen (R170). `kind` is the kind code of 11.3. -/
structure AckArea where
  state : CommandState
  kind : Option Nat
  result : Option Result
  data : List Byte
  deriving DecidableEq, Repr

/-- The timers of the held alerts of one link, 0 to 60 (R172). -/
structure AlertTimers where
  starved : Vector Nat 8
  missing : Vector Nat 8
  writeFault : Vector Nat 8
  absent : Vector Nat 8
  readFault : Vector Nat 4
  fitLimited : Vector Nat 4
  cueSkipped : Vector Nat 4
  keyIgnored : Nat
  deriving DecidableEq, Repr

/-- The listing state of a link (R173). -/
inductive Listing where
  | stopped
  | running (filter : Filter) (cursor : Nat)
  deriving DecidableEq, Repr

/-- The counts of a link, in the order of R174. -/
structure LinkCounts where
  accepted : Nat
  formatFaults : Nat
  crcFaults : Nat
  mismatches : Nat
  lossEntries : Nat
  graceExpiries : Nat
  commandsTaken : Nat
  busyAnswers : Nat
  reportsSent : Nat
  reportSkips : Nat
  deriving DecidableEq, Repr

/-- The summary of one channel in a report (R171, 11.1). -/
structure ChannelSummary where
  channel : Chan
  head : Option Playhead
  cueCount : Nat
  staged : Bool
  black : Bool
  frameValid : Bool
  gang : GangRole
  deriving DecidableEq, Repr

/-- What a report carries of a listing (R173). -/
inductive ListingItem where
  | none
  | record (clip : Clip)
  | endMarker
  deriving DecidableEq, Repr

/-- A report frame (R171), field by field. `draw` numbers the free bytes of its layout (notes/assumptions/9.md). -/
structure Report where
  station : Station
  houseLow : Nat
  ref : RefState
  pgm : Chan
  pvw : Chan
  holders : Vector (Option Station) 4
  selected : Option Chan
  openClip : Option Nat
  generation : Nat
  ackToggle : Bool
  ack : AckArea
  withheld : Bool
  alerts : AlertTimers
  summaries : List ChannelSummary
  listing : ListingItem
  draw : Nat
  deriving DecidableEq, Repr

/-- A report in transmission, and the divisor it is sent at (R161). -/
structure Transmission where
  report : Report
  divisor : Nat
  deriving DecidableEq, Repr

/-- The last three accepted lever readings (R166). -/
structure LeverHistory where
  oldest : Int
  middle : Int
  newest : Int
  deriving DecidableEq, Repr

/-- A link controller (chapter 9, and R91 for the lever). `rx` holds the bytes of the frame in reception, from its start
byte, and `rxDivisor` the divisor it is received at. -/
structure Link where
  state : LinkState
  enabled : Bool
  divisor : Nat
  lossCount : Nat
  graceCount : Nat
  lever : LeverHistory
  engaged : Bool
  confirmRun : Nat
  armed : Bool
  keys : Vector KeyState 8
  selected : Option Chan
  toggleSeen : Bool
  toggleSynced : Bool
  ack : AckArea
  listing : Listing
  listingHold : Bool
  alerts : AlertTimers
  counts : LinkCounts
  rx : List RxByte
  rxDivisor : Nat
  tx : Option Transmission
  deriving DecidableEq, Repr

/-- The settings of a station (section 10.4). -/
structure Settings where
  markSet : List Angle
  preroll : Nat
  playPreset : Int
  blend : Bool
  deriving DecidableEq, Repr

/-! ### The whole state -/

/-- The state of the HJV-480. `draws` and `pending` are the model's own: how often free bytes have been drawn, and the
queue of waiting commands. -/
structure State where
  timeBase : TimeBase
  recorders : Vector RecContext 8
  unknownAngles : Nat
  ingestOut : List IngestAnswer
  pages : PageStore
  clips : ClipTable
  channels : Vector Channel 4
  unmatchedPartWide : Nat
  fetchOut : List FetchRequest
  arbiter : Arbiter
  links : Vector Link 5
  curve : Vector Nat 11
  settings : Vector Settings 5
  resetHeld : Bool
  draws : Nat
  pending : List Instr
  deriving DecidableEq, Repr

/-- The reasons a step stops. The spec gives the block no fault that stops it: bad frames, notices, completions and
commands are counted, refused with a kind or answered with a result code, and the part goes on. No constructor. -/
inductive Fault where
  deriving DecidableEq, Repr

/-- The reasons a command is refused. -/
inductive Refusal where
  /-- Raised by `exec` alone, for a command that has no meaning yet. Safe: the model stops where the part goes on. -/
  | notModelled (mnemonic : String)
  deriving DecidableEq, Repr

/-! ### Values after hardware reset -/

/-- Every count of an angle at 0 (R33). -/
def RecCounts.zero : RecCounts :=
  { grants := 0, formatRefusals := 0, notRecordingRefusals := 0, staleRefusals := 0, overrunRefusals := 0,
    starvedRefusals := 0, missing := 0, completions := 0, writeFaults := 0, portFaults := 0, absences := 0 }

/-- Every count of a channel at 0 (R129, R144). -/
def ChanCounts.zero : ChanCounts :=
  { issued := 0, lateSkips := 0, unshown := 0, readFaults := 0, stale := 0, unmatched := 0, fitLimited := 0,
    cueSkips := 0 }

/-- Every count of a link at 0 (R175). -/
def LinkCounts.zero : LinkCounts :=
  { accepted := 0, formatFaults := 0, crcFaults := 0, mismatches := 0, lossEntries := 0, graceExpiries := 0,
    commandsTaken := 0, busyAnswers := 0, reportsSent := 0, reportSkips := 0 }

/-- No held alert is shown (R165). -/
def AlertTimers.zero : AlertTimers :=
  { starved := Vector.replicate 8 0, missing := Vector.replicate 8 0, writeFault := Vector.replicate 8 0,
    absent := Vector.replicate 8 0, readFault := Vector.replicate 4 0, fitLimited := Vector.replicate 4 0,
    cueSkipped := Vector.replicate 4 0, keyIgnored := 0 }

/-- An empty ack area: command state IDLE, result and result data empty (R165). -/
def AckArea.empty : AckArea := { state := .idle, kind := .none, result := .none, data := [] }

/-- The record context of an angle at hardware reset (R33). -/
def RecContext.reset : RecContext :=
  { state := .stopped, rateMultiple := 1, quota := 2048, expected := .none, newest := .none, pendingWrites := [],
    liveEdge := .none, present := false, silence := 3, counts := .zero }

/-- A channel at hardware reset (R112, R129, R144). -/
def Channel.reset : Channel :=
  { head := .none, gang := .none, black := false, cues := [], staged := false, inFlight := [], nextTag := 0,
    lastShown := .none, frameValid := false, counts := .zero }

/-- The arbiter at hardware reset and at controller restart (R160). -/
def Arbiter.reset : Arbiter :=
  { holders := Vector.replicate 4 .none, claims := Vector.replicate 5 .none,
    coolDown := Vector.replicate 5 (Vector.replicate 4 .none), pgm := 0, pvw := 1 }

/-- A link at hardware reset: enabled with divisor 4, in DOWN, with the session values of R165 (R175). The listing hold,
which no accepted desk frame has set yet, is no (DESIGN CHOICE, notes/assumptions/17.md). -/
def Link.reset : Link :=
  { state := .down, enabled := true, divisor := 4, lossCount := 0, graceCount := 0,
    lever := { oldest := 0, middle := 0, newest := 0 }, engaged := false, confirmRun := 0, armed := true,
    keys := Vector.replicate 8 .spent, selected := .none, toggleSeen := false, toggleSynced := false, ack := .empty,
    listing := .stopped, listingHold := false, alerts := .zero, counts := .zero, rx := [], rxDivisor := 4, tx := .none }

/-- The settings of a station at hardware reset (section 10.4). -/
def Settings.reset : Settings :=
  { markSet := [0, 1, 2, 3, 4, 5, 6, 7], preroll := 150, playPreset := 720, blend := true }

/-- The lever curve at hardware reset (R89). -/
def defaultCurve : Vector Nat 11 := #v[0, 18, 36, 72, 120, 180, 240, 360, 480, 720, 1440]

/-- The time base at hardware reset (R11); the moment of the release is moment 0 (notes/assumptions/2.md). -/
def TimeBase.reset : TimeBase :=
  { ref := .free, rate := .fps5994, houseCount := 0, qualifyingRun := 0, lastPulse := .none, lastEvent := 0,
    timerPlace := 0, lossCount := 0, relockCount := 0, unqualifiedCount := 0 }

/-- The page store at hardware reset: every page FREE, the pool 0 to 16,383 ascending (R58). -/
def PageStore.reset : PageStore :=
  { pool := List.range' 0 16384, lists := Vector.replicate 8 [], scans := [], reclaimed := Vector.replicate 8 0,
    starvations := Vector.replicate 8 0, mismatches := 0 }

/-- The clip table at hardware reset (R83). -/
def ClipTable.reset : ClipTable :=
  { clips := [], serialCounter := 1, generation := 0, openCounts := Vector.replicate 8 0, raised := false }

/-- The machine right after the release of RESET, with nothing waiting (R11, R33, R58, R83, R112, R129, R144, R160,
R175, section 10.4, R184). -/
def State.reset : State :=
  { timeBase := .reset, recorders := Vector.replicate 8 .reset, unknownAngles := 0, ingestOut := [], pages := .reset,
    clips := .reset, channels := Vector.replicate 4 .reset, unmatchedPartWide := 0, fetchOut := [], arbiter := .reset,
    links := Vector.replicate 5 .reset, curve := defaultCurve, settings := Vector.replicate 5 .reset,
    resetHeld := false, draws := 0, pending := [] }

end Sys2Proof.Machine
end

