-- ==== Sys2Proof/Machine/Ops.lean ====
section
/-! DEFINITION. Machine/Ops.lean: the named operations over the state that the families share: saturating counts, the
parts of State by angle, channel and link, page records and their holds, lookups, the clip table's records, and the ack
area. -/

namespace Sys2Proof.Machine

/-! ### Counts -/

/-- The value at which a 32-bit count saturates (R2, R10, R32, R57, R130, R174). -/
def satMax : Nat := 4294967295

/-- A saturating rise by `k` (00, Integer arithmetic; R32). -/
def satAdd (n k : Nat) : Nat := min (n + k) satMax

/-- A saturating rise by 1. -/
def satInc (n : Nat) : Nat := satAdd n 1

/-! ### Numbers of angles, channels and stations -/

/-- The angle a number names, if it lies in 1 to 8. -/
def angleOf? (n : Nat) : Option Angle := if h : 1 ≤ n ∧ n ≤ 8 then some ⟨n - 1, by omega⟩ else none

/-- The channel a number names, if it lies in 1 to 4. -/
def chanOf? (n : Nat) : Option Chan := if h : 1 ≤ n ∧ n ≤ 4 then some ⟨n - 1, by omega⟩ else none

/-- The station or link a number names, if it lies in 0 to 4. -/
def stationOf? (n : Nat) : Option Station := if h : n < 5 then some ⟨n, h⟩ else none

/-- The eight angles, ascending. -/
def allAngles : List Angle := [0, 1, 2, 3, 4, 5, 6, 7]

/-- The four channels, ascending. -/
def allChans : List Chan := [0, 1, 2, 3]

/-- The five stations, ascending. -/
def allStations : List Station := [0, 1, 2, 3, 4]

/-! ### Parts of the state by index -/

/-- `v` with its element `i` changed by `f`. -/
def vmod {α : Type} {n : Nat} (v : Vector α n) (i : Fin n) (f : α → α) : Vector α n :=
  v.set i.val (f (v.get i)) i.isLt

/-- The record context of an angle. -/
def State.recorder (s : State) (a : Angle) : RecContext := s.recorders.get a

/-- The record list of an angle, oldest page first. -/
def State.pageList (s : State) (a : Angle) : List Page := s.pages.lists.get a

/-- A replay channel. -/
def State.chan (s : State) (c : Chan) : Channel := s.channels.get c

/-- A link controller. -/
def State.link (s : State) (k : Station) : Link := s.links.get k

/-- The claim holder of a channel (R146). -/
def State.holder (s : State) (c : Chan) : Option Station := s.arbiter.holders.get c

/-- The pending claim of a station (R148). -/
def State.pendingClaim (s : State) (k : Station) : Option PendingClaim := s.arbiter.claims.get k

/-- The unclaimed run of a station's cool-down for a channel, if it is in cool-down (R149). -/
def State.coolDownRun (s : State) (k : Station) (c : Chan) : Option Nat := (s.arbiter.coolDown.get k).get c

/-- The settings of a station (section 10.4). -/
def State.setting (s : State) (k : Station) : Settings := s.settings.get k

/-- Change the record context of an angle. -/
def State.modRecorder (s : State) (a : Angle) (f : RecContext → RecContext) : State :=
  { s with recorders := vmod s.recorders a f }

/-- Change the counts of an angle. -/
def State.modRecCounts (s : State) (a : Angle) (f : RecCounts → RecCounts) : State :=
  s.modRecorder a fun r => { r with counts := f r.counts }

/-- Change the record list of an angle. -/
def State.modPageList (s : State) (a : Angle) (f : List Page → List Page) : State :=
  { s with pages := { s.pages with lists := vmod s.pages.lists a f } }

/-- Change a replay channel. -/
def State.modChan (s : State) (c : Chan) (f : Channel → Channel) : State :=
  { s with channels := vmod s.channels c f }

/-- Change the playhead of a channel that has one. -/
def State.modHead (s : State) (c : Chan) (f : Playhead → Playhead) : State :=
  s.modChan c fun ch => { ch with head := ch.head.map f }

/-- Change the counts of a channel. -/
def State.modChanCounts (s : State) (c : Chan) (f : ChanCounts → ChanCounts) : State :=
  s.modChan c fun ch => { ch with counts := f ch.counts }

/-- Change a link controller. -/
def State.modLink (s : State) (k : Station) (f : Link → Link) : State :=
  { s with links := vmod s.links k f }

/-- Change the counts of a link. -/
def State.modLinkCounts (s : State) (k : Station) (f : LinkCounts → LinkCounts) : State :=
  s.modLink k fun l => { l with counts := f l.counts }

/-- Set the claim holder of a channel. -/
def State.setHolder (s : State) (c : Chan) (h : Option Station) : State :=
  { s with arbiter := { s.arbiter with holders := vmod s.arbiter.holders c fun _ => h } }

/-- Set the pending claim of a station. -/
def State.setPendingClaim (s : State) (k : Station) (p : Option PendingClaim) : State :=
  { s with arbiter := { s.arbiter with claims := vmod s.arbiter.claims k fun _ => p } }

/-- Set the cool-down entry of a station and channel. -/
def State.setCoolDown (s : State) (k : Station) (c : Chan) (run : Option Nat) : State :=
  { s with arbiter := { s.arbiter with coolDown := vmod s.arbiter.coolDown k fun v => vmod v c fun _ => run } }

/-! ### Angle frames and replay positions (R12) -/

/-- The frame span fs = 720 / m of an angle. -/
def State.frameSpan (s : State) (a : Angle) : Nat := 720 / (s.recorder a).rateMultiple

/-- The newest complete house frame, the house count minus 1, and 0 at house count 0 (R2, R64). -/
def State.newestComplete (s : State) : Nat := s.timeBase.houseCount - 1

/-- The low 16 bits of the house count (R9). -/
def State.houseLow (s : State) : Nat := s.timeBase.houseCount % 65536

/-! ### Page records (R35 to R50) -/

/-- The hold count of a page, the sum of its four parts (R37). -/
def Page.holdCount (p : Page) : Nat := p.clipHolds + p.anchorPins + p.fetchHolds + p.writeHolds

/-- The record of a FREE page (R45, R58). -/
def Page.freeRecord (n : Nat) : Page :=
  { number := n, state := .free, firstFrame := 0, count := 0, faulted := [], clipHolds := 0, anchorPins := 0,
    fetchHolds := 0, writeHolds := 0 }

/-- The page record of a page number, with the angle whose record list holds it; a page in no list is FREE (R35, R38). -/
def State.pageRecord (s : State) (n : Nat) : Option Angle × Page :=
  match allAngles.findSome? fun a => ((s.pageList a).find? fun p => p.number = n).map fun p => (some a, p) with
  | some r => r
  | none => (none, Page.freeRecord n)

/-- The lower page of a frame: the page of the list with the greatest first frame not above it (R52). -/
def lowerPage (l : List Page) (frame : Nat) : Option Page := (l.filter fun p => p.firstFrame ≤ frame).getLast?

/-- The answer to a lookup by frame number (R50). -/
inductive Lookup where
  | held (page : Page) (index : Nat) (slot : Nat) (isFaulted : Bool) (preceding : Option Page)
  | gap (preceding : Option Page)
  deriving DecidableEq, Repr

/-- A lookup of a frame number in a record list (R50). -/
def lookup (l : List Page) (frame : Nat) : Lookup :=
  match lowerPage l frame with
  | some p =>
    if frame < p.firstFrame + p.count then
      .held p (frame - p.firstFrame) (p.number * 64 + (frame - p.firstFrame))
        (p.faulted.contains (frame - p.firstFrame)) (l.filter fun q => q.firstFrame < p.firstFrame).getLast?
    else .gap (some p)
  | none => .gap none

/-- Change the page record of a page number, wherever it is listed. -/
def State.modPage (s : State) (n : Nat) (f : Page → Page) : State :=
  { s with pages := { s.pages with
      lists := s.pages.lists.map fun l => l.map fun p => if p.number = n then f p else p } }

/-- Change the page record of a page, if there is one. -/
def State.modPage? (s : State) (n : Option Nat) (f : Page → Page) : State :=
  match n with
  | some n => s.modPage n f
  | none => s

/-- A slot index joins a faulted set, which stays ascending and without duplicates (R36). -/
def insertIndex (i : Nat) : List Nat → List Nat
  | [] => [i]
  | j :: rest => if i < j then i :: j :: rest else if i = j then j :: rest else j :: insertIndex i rest

/-- Move an anchor pin from one page to another, if they differ (R47). -/
def State.movePin (s : State) (old new : Option Nat) : State :=
  if old = new then s
  else
    (s.modPage? old fun p => { p with anchorPins := p.anchorPins - 1 }).modPage? new
      fun p => { p with anchorPins := p.anchorPins + 1 }

/-- Release the fetch holds that an entry of fetches in flight records (R48). -/
def State.releaseFetch (s : State) (e : FetchEntry) : State :=
  (s.modPage? e.pageA fun p => { p with fetchHolds := p.fetchHolds - 1 }).modPage? e.pageB
    fun p => { p with fetchHolds := p.fetchHolds - 1 }

/-- The FILLING page of a record list becomes SEALED with every other field kept (R15, R43). -/
def sealFilling (l : List Page) : List Page :=
  l.map fun p => if p.state = .filling then { p with state := .sealed } else p

/-! ### Clip records (R60 to R63) -/

/-- The present clip with an id and serial (R79). -/
def State.findClip (s : State) (id serial : Nat) : Option Clip :=
  s.clips.clips.find? fun c => c.id = id && c.serial = serial

/-- Change the present clip with an id and serial. -/
def State.modClip (s : State) (id serial : Nat) (f : Clip → Clip) : State :=
  { s with clips := { s.clips with
      clips := s.clips.clips.map fun c => if c.id = id && c.serial = serial then f c else c } }

/-- The clip with an id and serial leaves the table (R75). -/
def State.dropClip (s : State) (id serial : Nat) : State :=
  { s with clips := { s.clips with clips := s.clips.clips.filter fun c => !(c.id = id && c.serial = serial) } }

/-- A clip joins the table, which stands by ascending id. -/
def insertClip (c : Clip) : List Clip → List Clip
  | [] => [c]
  | d :: rest => if c.id < d.id then c :: d :: rest else d :: insertClip c rest

/-- The OPEN clip of a station, if it owns one (R61). -/
def State.openClip (s : State) (stn : Station) : Option Clip :=
  s.clips.clips.find? fun c => c.owner = stn && c.state = .opened

/-- The table generation rises by 1, from 65,535 to 0, unless this event has raised it already (R62). -/
def State.raiseGeneration (s : State) : State :=
  if s.clips.raised then s
  else { s with clips := { s.clips with generation := (s.clips.generation + 1) % 65536, raised := true } }

/-- Take an event that may raise the table generation, once in the event (R62, notes/assumptions/11.md). -/
def State.inEvent (s : State) (f : State → State) : State :=
  let t := f { s with clips := { s.clips with raised := false } }
  { t with clips := { t.clips with raised := false } }

/-- The open-clip counts of the angles of a set change by `f` (R71). -/
def State.modOpenCounts (s : State) (angles : List Angle) (f : Nat → Nat) : State :=
  { s with clips := { s.clips with openCounts := angles.foldl (fun v a => vmod v a f) s.clips.openCounts } }

/-! ### Free bytes and the RESET line -/

/-- A byte the spec states no value for (notes/assumptions/9.md). -/
def State.freeByte (s : State) (place : Config.Unstated) : Byte := Config.unstatedByte place s.draws

/-- Later free bytes are drawn anew. -/
def State.nextDraw (s : State) : State := { s with draws := s.draws + 1 }

/-- Take a command. While RESET is held the part takes nothing and gives nothing (R184). -/
def act (f : State → State) (s : State) : Host.Outcome State Fault Refusal := .next (if s.resetHeld then s else f s)

/-! ### The ack area (R170) -/

/-- Write the ack area of a link. -/
def State.writeAck (s : State) (k : Station) (ack : AckArea) : State := s.modLink k fun l => { l with ack := ack }

end Sys2Proof.Machine
end

