-- ==== Sys2Proof/Machine/Flags.lean ====
section
/-! DEFINITION. Machine/Flags.lean: the indications: the span of an angle and the clamp indication (R51, R97), and the held
alerts with their timers (R172). -/

namespace Sys2Proof.Machine

/-! ### Span and clamp -/

/-- The span Pmin to Pmax of an angle. There is none when its list is empty, its live edge absent, or its live edge below
the first frame of its oldest page (R51). -/
def State.span (s : State) (a : Angle) : Option (Nat × Nat) :=
  match (s.pageList a).head?, (s.recorder a).liveEdge with
  | some p, some e =>
    if e < p.firstFrame then none else some (p.firstFrame * s.frameSpan a, e * s.frameSpan a)
  | _, _ => none

/-- A wanted position clamped to a span, and whether the clamp cut it (R97). Without a span nothing is cut
(notes/assumptions/20.md). -/
def clampTo : Option (Nat × Nat) → Int → Nat × Bool
  | none, x => (x.toNat, false)
  | some (pmin, pmax), x =>
    if x > (pmax : Int) then (pmax, true) else if x < (pmin : Int) then (pmin, true) else (x.toNat, false)

/-- Pmax of an angle, or `old` without a span (notes/assumptions/20.md). -/
def State.liveEnd (s : State) (a : Angle) (old : Nat) : Nat :=
  match s.span a with
  | some (_, pmax) => pmax
  | none => old

/-- A speed limited to −2,880 to +2,880 (R85). -/
def limitSpeed (v : Int) : Int := max (-2880) (min 2880 v)

/-! ### Held alerts -/

/-- The timer of an alert. -/
def AlertTimers.get (t : AlertTimers) : Alert → Nat
  | .starved a => t.starved.get a
  | .missing a => t.missing.get a
  | .writeFault a => t.writeFault.get a
  | .absent a => t.absent.get a
  | .readFault c => t.readFault.get c
  | .fitLimited c => t.fitLimited.get c
  | .cueSkipped c => t.cueSkipped.get c
  | .keyIgnored => t.keyIgnored

/-- Set the timer of an alert. -/
def AlertTimers.set (t : AlertTimers) (alert : Alert) (n : Nat) : AlertTimers :=
  match alert with
  | .starved a => { t with starved := vmod t.starved a fun _ => n }
  | .missing a => { t with missing := vmod t.missing a fun _ => n }
  | .writeFault a => { t with writeFault := vmod t.writeFault a fun _ => n }
  | .absent a => { t with absent := vmod t.absent a fun _ => n }
  | .readFault c => { t with readFault := vmod t.readFault c fun _ => n }
  | .fitLimited c => { t with fitLimited := vmod t.fitLimited c fun _ => n }
  | .cueSkipped c => { t with cueSkipped := vmod t.cueSkipped c fun _ => n }
  | .keyIgnored => { t with keyIgnored := n }

/-- Lower each timer above 0 by 1 (R172). -/
def AlertTimers.lower (t : AlertTimers) : AlertTimers :=
  { starved := t.starved.map (· - 1), missing := t.missing.map (· - 1), writeFault := t.writeFault.map (· - 1),
    absent := t.absent.map (· - 1), readFault := t.readFault.map (· - 1), fitLimited := t.fitLimited.map (· - 1),
    cueSkipped := t.cueSkipped.map (· - 1), keyIgnored := t.keyIgnored - 1 }

/-- How many house frames a held alert is shown (R172). -/
def alertFrames : Nat := 60

/-- Raise an alert in one link: its timer starts, or starts again, at 60 (R172). -/
def State.raiseAlert (s : State) (k : Station) (alert : Alert) : State :=
  s.modLink k fun l => { l with alerts := l.alerts.set alert alertFrames }

/-- Raise an angle's alert, carried in the reports of every link (R172). -/
def State.raiseAngleAlert (s : State) (alert : Alert) : State :=
  allStations.foldl (fun t k => t.raiseAlert k alert) s

/-- Raise a channel's alert, carried in the reports of its holder, or of station 0 while it is unclaimed (R172). -/
def State.raiseChanAlert (s : State) (c : Chan) (alert : Alert) : State :=
  s.raiseAlert ((s.holder c).getD 0) alert

/-- Raise a station's KEY_IGNORED alert (R172). -/
def State.keyIgnored (s : State) (k : Station) : State := s.raiseAlert k .keyIgnored

end Sys2Proof.Machine
end

