-- ==== Sys2Proof/Machine/Operands.lean ====
section
/-! DEFINITION. Machine/Operands.lean: who and what a command acts on: the claim check of R146, the lever target and the
gang leader of R87 and R88, speed modes carried by commands, and angle sets carried as bits. -/

namespace Sys2Proof.Machine

/-- The channel a command on `c` acts on: its leader for a gang follower, else itself (R87, R88). -/
def State.leaderOf (s : State) (c : Chan) : Chan :=
  match (s.chan c).gang with
  | .follower l => l
  | _ => c

/-- The followers of a gang leader, ascending; none for any other channel. -/
def State.followersOf (s : State) (c : Chan) : List Chan :=
  match (s.chan c).gang with
  | .leader fs => fs
  | _ => []

/-- Whether a channel is a gang follower. -/
def State.isFollower (s : State) (c : Chan) : Bool :=
  match (s.chan c).gang with
  | .follower _ => true
  | _ => false

/-- The lever target of a station: its selected channel, or that channel's leader (R87). -/
def State.leverTarget (s : State) (k : Station) : Option Chan := (s.link k).selected.map s.leaderOf

/-- The claim check of R146 for a station's command on a channel: the refusal, or none when it passes. -/
def State.claimRefusal (s : State) (stn : Station) (c : Chan) : Option Result :=
  if s.holder c = some stn then none
  else if stn ≠ 0 then some .notClaimed
  else if s.holder c = none then none
  else some .claimed

/-- The speed mode a LOAD CLIP or a cue carries, a FIXED speed limited to −2,880 to +2,880 and a duration to 1 to 65,535;
without one, FIXED at the station's play preset (R114, R115, R122). -/
def cuePace (preset : Int) : Pace → CuePace
  | .none => .fixed preset
  | .speed v => .fixed (limitSpeed v.toInt)
  | .duration d => .fit (max 1 d.toNat)

/-- The angles of a bit set, bit n − 1 for angle n, ascending (11.3). -/
def anglesOfBits (b : Byte) : List Angle := allAngles.filter fun a => b.getLsbD a.val

/-- The bit set of an angle set (11.1). -/
def bitsOfAngles (l : List Angle) : Nat :=
  allAngles.foldl (fun n a => if l.contains a then n + 2 ^ a.val else n) 0

end Sys2Proof.Machine
end

