-- ==== Sys2Proof/Machine/Answers.lean ====
section
/-! DEFINITION. Machine/Answers.lean: the start of a command, its checks and its answer in the ack area (R169, R170), and
the bytes of result data (11.2). -/

namespace Sys2Proof.Machine

/-! ### Bytes of numbers -/

/-- A number in `n` bytes, most significant first (chapter 11). -/
def beBytes (n x : Nat) : List Byte := (List.range n).map fun i => BitVec.ofNat 8 (x / 256 ^ (n - 1 - i))

/-- A signed number in two bytes of two's complement (chapter 11). -/
def signedBytes (x : Int) : List Byte := beBytes 2 (x % 65536).toNat

/-- A yes or no byte of result data: 1 for yes and 0 for no, where R187 says of received bytes only that yes is nonzero
(enable, blend, trimmed, limited: DESIGN CHOICE, notes/assumptions/49.md). -/
def boolByte (b : Bool) : Byte := if b then 1 else 0

/-- The byte of a channel (11.2). -/
def chanByte (c : Chan) : Byte := BitVec.ofNat 8 (c.val + 1)

/-- The byte of an angle (11.2). -/
def angleByte (a : Angle) : Byte := BitVec.ofNat 8 (a.val + 1)

/-- The five bytes of the frame number at a place of an answer; those of an absent one are free
(notes/assumptions/9.md). -/
def State.frameBytes (s : State) (place : Nat) : Option Nat → List Byte
  | some n => beBytes 5 n
  | none => (List.range 5).map fun i => s.freeByte (.absentFrame place i)

/-! ### Answers -/

/-- What an owning block answers: a result code with result data, or, for a CLAIM placed in the list, none yet (R169). -/
structure Reply where
  result : Option Result
  data : List Byte
  deriving DecidableEq, Repr

/-- A result code without result data. -/
def Reply.plain (r : Result) : Reply := { result := some r, data := [] }

/-- Answered OK with result data. -/
def Reply.okWith (data : List Byte) : Reply := { result := some .ok, data := data }

/-- The ack area that describes a command of a kind with an answer (R170). -/
def ackOf (kind : Nat) (r : Reply) : AckArea :=
  match r.result with
  | some code => { state := .done, kind := some kind, result := some code, data := r.data }
  | none => { state := .inProgress, kind := some kind, result := none, data := [] }

/-- The command slot is occupied by a pending CLAIM (R148, R169). -/
def State.slotBusy (s : State) (k : Station) : Bool := (s.pendingClaim k).isSome

/-- The answer BUSY of a command started while the slot is occupied (R169). -/
def State.answerBusy (s : State) (k : Station) (kind : Nat) : State :=
  (s.modLinkCounts k fun n => { n with busyAnswers := satInc n.busyAnswers }).writeAck k (ackOf kind (.plain .busy))

/-- The start of a command of a known kind (R169): BUSY, then NOT_ALLOWED, then BAD_ARGUMENT for arguments that do not fit
the kind, then the owning block's rule `body`, whose answer is written in the ack area (R170). A link in OFF takes no
command (R161). -/
def startCommand (stn : Station) (kind : CommandKind) (fits : Bool) (body : State → State × Reply) (s : State) : State :=
  if (s.link stn).state = .off then s
  else if s.slotBusy stn && kind != .cancel then s.answerBusy stn kind.code
  else if kind.isReserved && stn != 0 then s.writeAck stn (ackOf kind.code (.plain .notAllowed))
  else if !fits then s.writeAck stn (ackOf kind.code (.plain .badArgument))
  else
    let taken := (s.modLinkCounts stn fun n => { n with commandsTaken := satInc n.commandsTaken }).nextDraw
    let r := body taken
    r.1.writeAck stn (ackOf kind.code r.2)

/-- The start of a command of a kind outside the catalogue (R169). -/
def startUnknown (stn : Station) (code : Nat) (s : State) : State :=
  if s.slotBusy stn then s.answerBusy stn code
  else s.writeAck stn (ackOf code (.plain .unknownCommand))

/-- A command that names a channel: the number first, then the claim check, then the command's own rule (R88, R146). -/
def onChannel (stn : Station) (channel : Byte) (rule : Chan → State → State × Reply) (s : State) : State × Reply :=
  match chanOf? channel.toNat with
  | none => (s, .plain .badArgument)
  | some c =>
    match s.claimRefusal stn c with
    | some r => (s, .plain r)
    | none => rule c s

/-- A pending CLAIM ends with a result: the ack area is written with kind CLAIM and the channel (R170). -/
def State.answerClaim (s : State) (k : Station) (c : Chan) (r : Result) : State :=
  s.writeAck k (ackOf CommandKind.claim.code { result := some r, data := [chanByte c] })

end Sys2Proof.Machine
end

