-- ==== Sys2Proof/Machine/PageStore.lean ====
section
/-! DEFINITION. Machine/PageStore.lean: page supply and reclaim (R40 to R42), the return of pages at ANGLE SET (R45), and
the queue and the visits of hold scans with their completion in the clip table (R52 to R55, R63, R75). -/

namespace Sys2Proof.Machine

/-! ### Page supply -/

/-- The hold mark of an OPEN clip: its in mark, or, while the LEAD scan of a re-mark is queued or running, its in mark
before that re-mark (R42, R67). The scan of a re-mark to an earlier in ends at it, that to a later in starts at it. -/
def State.holdMark (s : State) (c : Clip) : Nat :=
  match s.pages.scans.find? fun sc => sc.clipId = c.id && sc.serial = c.serial && sc.rule = .lead with
  | some sc =>
    match sc.kind with
    | .add => sc.stop.getD c.inMark
    | .remove => sc.start
  | none => c.inMark

/-- How many in-point holds a supply with first frame `frame` moves off the page that was newest (R42). -/
def State.movedInPoints (s : State) (a : Angle) (frame : Nat) : Nat :=
  (s.clips.clips.filter fun c =>
    c.state = .opened && c.angles.contains a &&
      decide (frame ≤ s.holdMark c * (s.recorder a).rateMultiple)).length

/-- A page entering FILLING at a supply, before its grant: count 0, an empty faulted set and the opening hold (R42). -/
def openedPage (number frame openClips : Nat) : Page :=
  { number := number, state := .filling, firstFrame := frame, count := 0, faulted := [], clipHolds := openClips,
    anchorPins := 0, fetchHolds := 0, writeHolds := 0 }

/-- The reclaim candidate of a list whose FILLING page has been sealed: the oldest SEALED page with hold count 0 that is
not the newest page (R41). -/
def reclaimCandidate (l : List Page) : Option Page :=
  l.dropLast.find? fun p => p.state = .sealed && p.holdCount = 0

/-- The page that was newest before the supply gives up the in-point holds that move (R42). -/
def releaseInPoints (l : List Page) (moved : Nat) : List Page :=
  match l.getLast? with
  | some p => l.dropLast ++ [{ p with clipHolds := p.clipHolds - moved }]
  | none => []

/-- A page supply for an angle with first frame `frame` (R40): the state after it, and the page supplied, if any. -/
def State.supplyPage (s : State) (a : Angle) (frame : Nat) : State × Option Nat :=
  let l := sealFilling (s.pageList a)
  let opened := fun n => openedPage n frame (s.clips.openCounts.get a)
  let kept := releaseInPoints l (s.movedInPoints a frame)
  match (if l.length < (s.recorder a).quota then s.pages.pool.head? else none) with
  | some n =>
    (({ s with pages := { s.pages with pool := s.pages.pool.tail } } : State).modPageList a
      fun _ => kept ++ [opened n], some n)
  | none =>
    match reclaimCandidate l with
    | some p =>
      (({ s with pages := { s.pages with reclaimed := vmod s.pages.reclaimed a satInc } } : State).modPageList a
        fun _ => (kept.filter fun q => q.number != p.number) ++ [opened p.number], some p.number)
    | none =>
      (({ s with pages := { s.pages with starvations := vmod s.pages.starvations a satInc } } : State).modPageList a
        fun _ => l, none)

/-- Seal the FILLING page of an angle (R15, R16, R43). -/
def State.sealAngle (s : State) (a : Angle) : State := s.modPageList a sealFilling

/-- ANGLE SET empties the record list of an angle: each page, oldest first, joins the tail of the pool, and the angle
leaves every scan request (R45). -/
def State.emptyAngle (s : State) (a : Angle) : State :=
  ({ s with pages := { s.pages with
      pool := s.pages.pool ++ (s.pageList a).map (·.number)
      scans := s.pages.scans.map fun sc => { sc with angles := sc.angles.filter fun x => x.angle != a } } } :
    State).modPageList a fun _ => []

/-! ### Hold scans -/

/-- The oldest page of a list beyond a progress point (at or above `frame` under TAIL before any visit), if it passes the
scan's upper test `within` (R54). -/
def nextPage (l : List Page) (beyond : Page → Bool) (within : Page → Bool) : Option Page :=
  match l.find? beyond with
  | some p => if within p then some p else none
  | none => none

/-- The next page a scan visits on one angle with its progress point after the visit, or none when the angle is done
(R52, R54). The lower page of an open-ended COVER is found among the pages within the bound, those in the list
at the queueing (R55 over R52 and R54: DEDUCED, notes/assumptions/13.md). -/
def scanTarget (l : List Page) (m : Nat) (sc : Scan) (sa : ScanAngle) : Option (Page × Nat) :=
  let lo := sc.start * m
  let upper : Page → Bool :=
    match sc.stop, sa.bound with
    | some e, _ => fun p => p.firstFrame ≤ (e + 1) * m - 1
    | none, some b => fun p => p.firstFrame ≤ b
    | none, none => fun _ => false
  let after := fun (from' : Nat) (within : Page → Bool) =>
    (nextPage l (fun p => from' < p.firstFrame) within).map fun p => (p, p.firstFrame)
  match sc.rule, sa.progress with
  | .cover, some g => after g upper
  | .cover, none =>
    match lowerPage (l.filter fun p => sc.stop.isSome || upper p) lo with
    | some p => some (p, lo)
    | none => after lo upper
  | .lead, progress =>
    match lowerPage l ((sc.stop.getD 0) * m) with
    | none => none
    | some q =>
      let below : Page → Bool := fun p => p.firstFrame < q.firstFrame
      match progress, lowerPage l lo with
      | some g, _ => after g below
      | none, some p => if p.number = q.number then none else some (p, lo)
      | none, none => after lo below
  | .tail, some g => after g upper
  | .tail, none => (nextPage l (fun p => lo ≤ p.firstFrame) upper).map fun p => (p, p.firstFrame)

/-- The next visit of a scan on the angle at its front (R54). -/
def State.nextVisit (s : State) (sc : Scan) (sa : ScanAngle) : Option (Page × Nat) :=
  scanTarget (s.pageList sa.angle) (s.recorder sa.angle).rateMultiple sc sa

/-- The angles a scan has still to do: those at the front that are done leave (R54). -/
def State.angleRest (s : State) (sc : Scan) : List ScanAngle → List ScanAngle
  | [] => []
  | sa :: rest => if (s.nextVisit sc sa).isSome then sa :: rest else s.angleRest sc rest

/-- The clip table takes a scan completion: the clip's scans pending fall by 1, and at 0 a CLOSING clip becomes CLOSED and
a DELETING clip is removed; a completion that names no present clip changes nothing (R63, R75). -/
def State.scanCompleted (s : State) (id serial : Nat) : State :=
  match s.findClip id serial with
  | none => s
  | some c =>
    if c.scansPending - 1 = 0 then
      match c.state with
      | .closing => (s.modClip id serial fun d => { d with scansPending := 0, state := .closed }).raiseGeneration
      | .deleting => (s.dropClip id serial).raiseGeneration
      | _ => s.modClip id serial fun d => { d with scansPending := 0 }
    else s.modClip id serial fun d => { d with scansPending := d.scansPending - 1 }

/-- Run the scans at the head of the queue on until one has a page to visit: a scan whose angles are all done leaves the
queue with its completion, and the next starts at once (R54). -/
def State.settleFrom (s : State) : List Scan → State
  | [] => { s with pages := { s.pages with scans := [] } }
  | sc :: rest =>
    match s.angleRest sc sc.angles with
    | [] => (({ s with pages := { s.pages with scans := rest } } : State).scanCompleted sc.clipId sc.serial).settleFrom rest
    | angles => { s with pages := { s.pages with scans := { sc with angles := angles } :: rest } }

/-- Run the scan queue on until the running scan has a page to visit. It runs at each event that queues a scan and at each
SCAN_VISIT, so a running scan that an ANGLE SET or a supply left without a page completes at the first of these (DEDUCED,
notes/assumptions/12.md). -/
def State.settleScans (s : State) : State := s.settleFrom s.pages.scans

/-- One visit to a page: ADD adds a clip hold; REMOVE releases one, or counts a hold mismatch where there is none (R49,
R54). -/
def State.visitPage (s : State) (kind : ScanKind) (p : Page) : State :=
  match kind with
  | .add => s.modPage p.number fun q => { q with clipHolds := q.clipHolds + 1 }
  | .remove =>
    if p.clipHolds = 0 then { s with pages := { s.pages with mismatches := satInc s.pages.mismatches } }
    else s.modPage p.number fun q => { q with clipHolds := q.clipHolds - 1 }

/-- The running scan visits one page and goes on (R54). -/
def State.scanVisit (s : State) : State :=
  let s := s.settleScans
  match s.pages.scans with
  | [] => s
  | sc :: rest =>
    match sc.angles with
    | [] => s
    | sa :: more =>
      match s.nextVisit sc sa with
      | none => s
      | some (p, progress) =>
        let sc' := { sc with angles := { sa with progress := some progress } :: more }
        (({ s with pages := { s.pages with scans := sc' :: rest } } : State).visitPage sc.kind p).settleScans

/-- What a queued request keeps for an angle: for an open end the first frame of the newest page, and with head at once
the first frame of the head page (R53). -/
def State.scanAngle (s : State) (openEnd headAtOnce : Bool) (start : Nat) (a : Angle) : ScanAngle :=
  let l := s.pageList a
  let head := (lowerPage l (start * (s.recorder a).rateMultiple)).or l.head?
  { angle := a
    bound := if openEnd then l.getLast?.map (·.firstFrame) else none
    progress := if headAtOnce then head.map (·.firstFrame) else none }

/-- The head hold of an angle: one clip hold on the head page, the lower page of the start or else the oldest (R53). -/
def State.headHold (s : State) (start : Nat) (a : Angle) : State :=
  let l := s.pageList a
  s.modPage? (((lowerPage l (start * (s.recorder a).rateMultiple)).or l.head?).map (·.number))
    fun p => { p with clipHolds := p.clipHolds + 1 }

/-- Queue a hold scan of a clip over its angle set (R53); its scans pending rise by 1 (R63). The queue is run on by
`settleScans` when the event has made its other changes. -/
def State.queueScan (s : State) (c : Clip) (kind : ScanKind) (rule : VisitRule) (start : Nat) (stop : Option Nat)
    (headAtOnce : Bool) : State :=
  let scan : Scan :=
    { clipId := c.id, serial := c.serial, kind := kind, rule := rule, start := start, stop := stop,
      headAtOnce := headAtOnce, angles := c.angles.map (s.scanAngle stop.isNone headAtOnce start) }
  let held := if headAtOnce then c.angles.foldl (fun t a => t.headHold start a) s else s
  ({ held with pages := { held.pages with scans := held.pages.scans ++ [scan] } } : State).modClip c.id c.serial
    fun d => { d with scansPending := d.scansPending + 1 }

/-! ### SCAN_VISIT -/

/-- SCAN_VISIT (R54): the running scan visits one page. -/
def execScanVisit (s : State) : Host.Outcome State Fault Refusal := act (fun s => s.inEvent State.scanVisit) s

end Sys2Proof.Machine
end

