-- ==== Sys2Proof/Machine/ClipTable.lean ====
section
/-! DEFINITION. Machine/ClipTable.lean: marks, creation and closing of clips (R61, R64 to R71), protection (R72), deletion
(R73 to R75), labels, tags and hero angles (R76 to R79), and use counts (R80). -/

namespace Sys2Proof.Machine

/-! ### Use counts and deletion -/

/-- A clip becomes DELETING and its REMOVE scan with rule COVER is queued (R73, R74). -/
def State.startDeletion (s : State) (c : Clip) : State :=
  let t := (s.modClip c.id c.serial fun d => { d with state := .deleting }).raiseGeneration
  (t.queueScan c .remove .cover c.inMark c.outMark false).settleScans

/-- A clip is removed (R75). -/
def State.removeClip (s : State) (c : Clip) : State := (s.dropClip c.id c.serial).raiseGeneration

/-- A channel leaves CLIP on a clip: its use count falls by 1, and a RETIRING clip that reaches 0 is deleted (R74, R80). -/
def State.dropUse (s : State) (id serial : Nat) : State :=
  match s.findClip id serial with
  | none => s
  | some c =>
    let t := s.modClip id serial fun d => { d with useCount := d.useCount - 1 }
    if c.state = .retiring && c.useCount - 1 = 0 then
      if c.isProtected then t.startDeletion c else t.removeClip c
    else t

/-- A channel enters CLIP on a clip: its use count rises by 1 (R80). -/
def State.addUse (s : State) (id serial : Nat) : State :=
  s.modClip id serial fun d => { d with useCount := d.useCount + 1 }

/-! ### Mark sources -/

/-- The mark of a station: the house frame of its selected channel's position, or the newest complete house frame when it
has no selected channel or that channel is IDLE or LIVE (R64). -/
def State.mark (s : State) (stn : Station) : Nat :=
  match (s.link stn).selected with
  | none => s.newestComplete
  | some c =>
    match (s.chan c).head with
    | none => s.newestComplete
    | some h => if h.mode = .live then s.newestComplete else h.position / 720

/-! ### Creation -/

/-- The lowest id from 1 to 512 that no present clip has (R61). -/
def State.freeId (s : State) : Option Nat :=
  (List.range' 1 512).find? fun i => !(s.clips.clips.any fun c => c.id = i)

/-- The serial a new clip takes: the serial counter's, or the next value, from 65,535 to 1, that no present clip has
(R61). -/
def State.freeSerial (s : State) : Nat :=
  let at' := fun k => (s.clips.serialCounter - 1 + k) % 65535 + 1
  match (List.range' 0 65535).find? fun k => !(s.clips.clips.any fun c => c.serial = at' k) with
  | some k => at' k
  | none => s.clips.serialCounter

/-- House frame `h` has material on an angle when some page holds a frame of it (R65). -/
def State.hasMaterial (s : State) (h : Nat) (a : Angle) : Bool :=
  let m := (s.recorder a).rateMultiple
  (s.pageList a).any fun p => p.firstFrame < (h + 1) * m && decide (h * m < p.firstFrame + p.count)

/-- The house frame of the least frame an angle holds at or above house frame `h` (R65). -/
def State.nextMaterial (s : State) (h : Nat) (a : Angle) : Option Nat :=
  let m := (s.recorder a).rateMultiple
  ((s.pageList a).find? fun p => h * m < p.firstFrame + p.count).map fun p => (max p.firstFrame (h * m)) / m

/-- The in mark of a created clip from the mark `h`, and whether it was trimmed (R65). -/
def State.trimMark (s : State) (angles : List Angle) (h : Nat) : Nat × Bool :=
  if angles.any (s.hasMaterial h) then (h, false)
  else
    match (angles.filterMap (s.nextMaterial h)).min? with
    | some t => (t, true)
    | none => (h, false)

/-- The record of a created clip (R66, R70). -/
def newClip (id serial : Nat) (state : ClipState) (owner : Station) (angles : List Angle) (inMark : Nat)
    (outMark : Option Nat) (trimmed : Bool) : Clip :=
  { id := id, serial := serial, state := state, owner := owner, angles := angles, inMark := inMark,
    outMark := outMark, isProtected := true, hero := angles.head?.getD 0, label := [], tags := [], useCount := 0,
    scansPending := 0, trimmed := trimmed }

/-- A created clip joins the table and the serial counter moves past its serial (R61, R62). -/
def State.addClip (s : State) (c : Clip) : State :=
  ({ s with clips := { s.clips with
      clips := insertClip c s.clips.clips
      serialCounter := if c.serial = 65535 then 1 else c.serial + 1 } } : State).raiseGeneration

/-- The result data of MARK IN and MARK OUT: id, serial, in, trimmed, out (0 while OPEN) (R81, 11.2). -/
def markData (c : Clip) : List Byte :=
  beBytes 2 c.id ++ beBytes 2 c.serial ++ beBytes 4 c.inMark ++ [boolByte c.trimmed] ++ beBytes 4 (c.outMark.getD 0)

/-! ### MARK IN -/

/-- MARK IN of a station that owns no OPEN clip creates one (R66), or the table is full (R61). -/
def State.createOpen (s : State) (stn : Station) : State × Reply :=
  match s.freeId with
  | none => (s, .plain .tableFull)
  | some id =>
    let angles := (s.setting stn).markSet
    let mark := s.trimMark angles (s.mark stn)
    let c := newClip id s.freeSerial .opened stn angles mark.1 none mark.2
    let t := (s.addClip c).modOpenCounts angles (· + 1)
    ((t.queueScan c .add .cover mark.1 none true).settleScans, .okWith (markData c))

/-- MARK IN of a station that owns an OPEN clip re-marks it, or is refused BUSY while a scan is pending (R67). -/
def State.reMark (s : State) (stn : Station) (c : Clip) : State × Reply :=
  if 0 < c.scansPending then (s, .plain .busy)
  else
    let h := s.mark stn
    let d := { c with inMark := h, trimmed := false }
    let moved := (s.modClip c.id c.serial fun e => { e with inMark := h, trimmed := false }).raiseGeneration
    if h = c.inMark then (s, .okWith (markData c))
    else if h < c.inMark then
      ((moved.queueScan c .add .lead h (some c.inMark) false).settleScans, .okWith (markData d))
    else ((moved.queueScan c .remove .lead c.inMark (some h) false).settleScans, .okWith (markData d))

/-- MARK IN by key or by command (R66, R67). -/
def State.takeMarkIn (s : State) (stn : Station) : State × Reply :=
  match s.openClip stn with
  | none => s.createOpen stn
  | some c => s.reMark stn c

/-! ### MARK OUT -/

/-- The greatest length of a clip less one, in house frames (R68). -/
def maxLength : Nat := 1048574

/-- The in and out marks an OPEN clip takes from a mark (R68): out at or above in, or swapped, or, with a scan pending, one
house frame long; then the length clamp. -/
def closeMarks (c : Clip) (mark : Nat) : Nat × Nat :=
  let inMark := if mark < c.inMark && c.scansPending = 0 then mark else c.inMark
  let outMark := if mark < c.inMark then c.inMark else mark
  (inMark, min outMark (inMark + maxLength))

/-- MARK OUT of an OPEN clip with a given mark (R68, R69, R82). -/
def State.closeClip (s : State) (c : Clip) (mark : Nat) : State × Reply :=
  let marks := closeMarks c mark
  let d := { c with state := .closing, inMark := marks.1, outMark := some marks.2 }
  let t := (s.modClip c.id c.serial fun e =>
    { e with state := .closing, inMark := marks.1, outMark := some marks.2 }).raiseGeneration
  let t := t.modOpenCounts c.angles (· - 1)
  let t := if marks.1 < c.inMark then t.queueScan c .add .lead marks.1 (some c.inMark) false else t
  ((t.queueScan c .remove .tail (marks.2 + 1) none false).settleScans, .okWith (markData d))

/-- MARK OUT of a station that owns no OPEN clip creates a clip of the preroll length (R70). -/
def State.createClosing (s : State) (stn : Station) : State × Reply :=
  match s.freeId with
  | none => (s, .plain .tableFull)
  | some id =>
    let set := s.setting stn
    let out := s.mark stn
    let c := newClip id s.freeSerial .closing stn set.markSet (out + 1 - set.preroll) (some out) false
    (((s.addClip c).queueScan c .add .cover c.inMark c.outMark false).settleScans, .okWith (markData c))

/-- MARK OUT by key or by command (R68 to R70). -/
def State.takeMarkOut (s : State) (stn : Station) : State × Reply :=
  match s.openClip stn with
  | some c => s.closeClip c (s.mark stn)
  | none => s.createClosing stn

/-- The mark out of a station's OPEN clip at grace expiry, at the newest complete house frame (R82). -/
def State.graceMarkOut (s : State) (stn : Station) : State :=
  match s.openClip stn with
  | some c => (s.closeClip c s.newestComplete).1
  | none => s

/-! ### Commands on a named clip -/

/-- The checks of R79 of a command on a named clip, then the command's own rule. -/
def onClip (stn : Station) (id serial : BitVec 16) (rule : Clip → State → State × Reply) (s : State) : State × Reply :=
  match s.findClip id.toNat serial.toNat with
  | none => (s, .plain .noClip)
  | some c => if stn = c.owner || stn = 0 then rule c s else (s, .plain .notOwner)

/-- PROTECT and UNPROTECT of a clip to the wanted value (R72). -/
def protectRule (wanted : Bool) (c : Clip) (s : State) : State × Reply :=
  if c.state = .opened || c.state = .retiring || c.state = .deleting then (s, .plain .wrongState)
  else if 0 < c.scansPending || c.state = .closing then (s, .plain .clipBusy)
  else if c.isProtected = wanted then (s, .plain .ok)
  else
    let t := (s.modClip c.id c.serial fun d => { d with isProtected := wanted }).raiseGeneration
    let kind := if wanted then ScanKind.add else ScanKind.remove
    ((t.queueScan c kind .cover c.inMark c.outMark false).settleScans, .plain .ok)

/-- DELETE of a clip (R73). -/
def deleteRule (c : Clip) (s : State) : State × Reply :=
  if c.state = .retiring || c.state = .deleting then (s, .plain .wrongState)
  else if 0 < c.scansPending || c.state = .closing then (s, .plain .clipBusy)
  else if c.state = .opened then ((s.modOpenCounts c.angles (· - 1)).startDeletion c, .plain .ok)
  else if 0 < c.useCount then
    ((s.modClip c.id c.serial fun d => { d with state := .retiring }).raiseGeneration, .plain .ok)
  else if c.isProtected then (s.startDeletion c, .plain .ok)
  else (s.removeClip c, .plain .ok)

/-- Change a clip's fields that take no part in holds; the generation rises when the record changes (R62, R76 to R78). -/
def State.editClip (s : State) (c d : Clip) : State :=
  if d = c then s else (s.modClip c.id c.serial fun _ => d).raiseGeneration

/-- A RETIRING or DELETING clip gives WRONG_STATE to the commands of R76 to R78. -/
def Clip.isLeaving (c : Clip) : Bool := c.state = .retiring || c.state = .deleting

/-- A character of the printable range, codes 32 to 126 (R76). -/
def isPrintable (ch : BitVec 7) : Bool := 32 ≤ ch.toNat && ch.toNat ≤ 126

/-- LABEL of a clip (R76). -/
def labelRule (text : List (BitVec 7)) (c : Clip) (s : State) : State × Reply :=
  if c.isLeaving then (s, .plain .wrongState)
  else if 24 < text.length || !text.all isPrintable then (s, .plain .badArgument)
  else (s.editClip c { c with label := text }, .plain .ok)

/-- TAG ADD to a clip (R77). -/
def tagAddRule (tag : Byte) (c : Clip) (s : State) : State × Reply :=
  if c.isLeaving then (s, .plain .wrongState)
  else if tag = 0 then (s, .plain .badArgument)
  else if c.tags.contains tag then (s, .plain .ok)
  else if 4 ≤ c.tags.length then (s, .plain .listFull)
  else (s.editClip c { c with tags := c.tags ++ [tag] }, .plain .ok)

/-- TAG REMOVE from a clip (R77). -/
def tagRemoveRule (tag : Byte) (c : Clip) (s : State) : State × Reply :=
  if c.isLeaving then (s, .plain .wrongState)
  else if tag = 0 then (s, .plain .badArgument)
  else (s.editClip c { c with tags := c.tags.filter fun t => t != tag }, .plain .ok)

/-- HERO of a clip (R78). -/
def heroRule (angle : Byte) (c : Clip) (s : State) : State × Reply :=
  if c.isLeaving then (s, .plain .wrongState)
  else
    match angleOf? angle.toNat with
    | some a => if c.angles.contains a then (s.editClip c { c with hero := a }, .plain .ok) else (s, .plain .badArgument)
    | none => (s, .plain .badArgument)

/-! ### The commands -/

/-- Start MARK IN (R66, R67, R81). -/
def startMarkIn (stn : Station) (s : State) : State := startCommand stn .markIn true (fun s => s.takeMarkIn stn) s

/-- Start MARK OUT (R68 to R70, R81). -/
def startMarkOut (stn : Station) (s : State) : State := startCommand stn .markOut true (fun s => s.takeMarkOut stn) s

/-- Start PROTECT (R72). -/
def startProtect (stn : Station) (id serial : BitVec 16) (s : State) : State :=
  startCommand stn .protect true (onClip stn id serial (protectRule true)) s

/-- Start UNPROTECT (R72). -/
def startUnprotect (stn : Station) (id serial : BitVec 16) (s : State) : State :=
  startCommand stn .unprotect true (onClip stn id serial (protectRule false)) s

/-- Start DELETE (R73). -/
def startDelete (stn : Station) (id serial : BitVec 16) (s : State) : State :=
  startCommand stn .delete true (onClip stn id serial deleteRule) s

/-- Start LABEL (R76); a message has room for 25 characters (R185, R187). -/
def startLabel (stn : Station) (id serial : BitVec 16) (text : List (BitVec 7)) (s : State) : State :=
  startCommand stn .label (decide (text.length ≤ 25)) (onClip stn id serial (labelRule text)) s

/-- Start TAG ADD (R77). -/
def startTagAdd (stn : Station) (id serial : BitVec 16) (tag : Byte) (s : State) : State :=
  startCommand stn .tagAdd true (onClip stn id serial (tagAddRule tag)) s

/-- Start TAG REMOVE (R77). -/
def startTagRemove (stn : Station) (id serial : BitVec 16) (tag : Byte) (s : State) : State :=
  startCommand stn .tagRemove true (onClip stn id serial (tagRemoveRule tag)) s

/-- Start HERO (R78). -/
def startHero (stn : Station) (id serial : BitVec 16) (angle : Byte) (s : State) : State :=
  startCommand stn .hero true (onClip stn id serial (heroRule angle)) s

/-- MARK_IN. -/
def execMarkIn (stn : Station) (s : State) : Host.Outcome State Fault Refusal :=
  act (fun s => s.inEvent (startMarkIn stn)) s

/-- MARK_OUT. -/
def execMarkOut (stn : Station) (s : State) : Host.Outcome State Fault Refusal :=
  act (fun s => s.inEvent (startMarkOut stn)) s

/-- PROTECT. -/
def execProtect (stn : Station) (id serial : BitVec 16) (s : State) : Host.Outcome State Fault Refusal :=
  act (fun s => s.inEvent (startProtect stn id serial)) s

/-- UNPROTECT. -/
def execUnprotect (stn : Station) (id serial : BitVec 16) (s : State) : Host.Outcome State Fault Refusal :=
  act (fun s => s.inEvent (startUnprotect stn id serial)) s

/-- DELETE. -/
def execDelete (stn : Station) (id serial : BitVec 16) (s : State) : Host.Outcome State Fault Refusal :=
  act (fun s => s.inEvent (startDelete stn id serial)) s

/-- LABEL. -/
def execLabel (stn : Station) (id serial : BitVec 16) (text : List (BitVec 7)) (s : State) :
    Host.Outcome State Fault Refusal :=
  act (fun s => s.inEvent (startLabel stn id serial text)) s

/-- TAG_ADD. -/
def execTagAdd (stn : Station) (id serial : BitVec 16) (tag : Byte) (s : State) : Host.Outcome State Fault Refusal :=
  act (fun s => s.inEvent (startTagAdd stn id serial tag)) s

/-- TAG_REMOVE. -/
def execTagRemove (stn : Station) (id serial : BitVec 16) (tag : Byte) (s : State) : Host.Outcome State Fault Refusal :=
  act (fun s => s.inEvent (startTagRemove stn id serial tag)) s

/-- HERO. -/
def execHero (stn : Station) (id serial : BitVec 16) (angle : Byte) (s : State) : Host.Outcome State Fault Refusal :=
  act (fun s => s.inEvent (startHero stn id serial angle)) s

end Sys2Proof.Machine
end

