-- ==== Sys2Proof/Machine/Motion.lean ====
section
/-! DEFINITION. Machine/Motion.lean: what moves a playhead: the anchor pin (R47, R107), leaving CLIP and entering IDLE (R86),
the followers of a gang (R109, R110), the change of angle (R103), and the lever target (R94). -/

namespace Sys2Proof.Machine

/-! ### Playheads -/

/-- The anchor page of a position on an angle: the page that holds the anchor frame or stands before its gap (R47). -/
def State.anchorPage (s : State) (a : Angle) (position : Nat) : Option Nat :=
  (lowerPage (s.pageList a) (position / s.frameSpan a)).map (·.number)

/-- Give a channel a playhead and move its anchor pin in the same event (R47, R107). -/
def State.writeHead (s : State) (c : Chan) (h : Playhead) : State :=
  let new := s.anchorPage h.angle h.position
  (s.movePin ((s.chan c).head.bind (·.anchor)) new).modChan c fun ch => { ch with head := some { h with anchor := new } }

/-- The state a follower takes from its leader's: FOLLOW when the leader is in CLIP (R109). -/
def followMode : Mode → Mode
  | .clip _ => .follow
  | m => m

/-- The playhead a follower takes from its leader's (R109). Under a LIVE leader its clamp indication is no, also when the
leader's position lies outside its span (R109 over R97: DESIGN CHOICE, notes/assumptions/41.md). -/
def State.followHead (s : State) (leader follower : Playhead) : Playhead :=
  let moved :=
    if leader.mode = .live then (s.liveEnd follower.angle follower.position, false)
    else clampTo (s.span follower.angle) leader.position
  { follower with mode := followMode leader.mode, speed := leader.speed, position := moved.1, clamp := moved.2 }

/-- Move one follower after its leader (R109). -/
def State.followOne (s : State) (l f : Chan) : State :=
  match (s.chan l).head, (s.chan f).head with
  | some hl, some hf => s.writeHead f (s.followHead hl hf)
  | _, _ => s

/-- Move the followers of a leader (R109). -/
def State.moveFollowers (s : State) (l : Chan) : State := (s.followersOf l).foldl (fun t f => t.followOne l f) s

/-- Give a channel a playhead and move its followers (R47, R109); also where the position, the angle and the state stay as
they were, as at an advance with speed 0 (DESIGN CHOICE, notes/assumptions/40.md). -/
def State.place (s : State) (c : Chan) (h : Playhead) : State := (s.writeHead c h).moveFollowers c

/-- Change state or speed of a channel without moving its playhead, and its followers with it (R109). Its followers are
moved, and clamped anew, at an event that changes its speed alone too (DESIGN CHOICE, notes/assumptions/40.md). -/
def State.steer (s : State) (c : Chan) (f : Playhead → Playhead) : State := (s.modHead c f).moveFollowers c

/-- PAUSED with speed 0; position and clamp indication kept (R93, R94, R100). -/
def Playhead.pause (h : Playhead) : Playhead := { h with mode := .paused, speed := 0 }

/-- A channel that leaves CLIP: CUE NEXT staged becomes no and the clip's use count falls by 1 (R86). The clip context goes
with the playhead written next. -/
def State.leaveClip (s : State) (c : Chan) : State :=
  match (s.chan c).head with
  | some h =>
    match h.mode with
    | .clip ctx => (s.modChan c fun ch => { ch with staged := false }).dropUse ctx.clipId ctx.serial
    | _ => s
  | none => s

/-! ### Gangs -/

/-- A channel's place in its gang ends, without a change of its playhead: a follower leaves its leader's list, and a leader
whose last follower leaves stands alone (R110). -/
def State.unlinkFollower (s : State) (f : Chan) : State :=
  match (s.chan f).gang with
  | .follower l =>
    (s.modChan l fun ch =>
      match ch.gang with
      | .leader fs => { ch with gang := if (fs.filter (· != f)).isEmpty then .none else .leader (fs.filter (· != f)) }
      | _ => ch).modChan f fun ch => { ch with gang := .none }
  | _ => s

/-- A follower leaves its gang, other than by entering IDLE: it becomes PAUSED with speed 0 (R110). -/
def State.leaveGang (s : State) (f : Chan) : State :=
  if s.isFollower f then (s.unlinkFollower f).modHead f Playhead.pause else s

/-- A gang shrinks or dissolves: a follower leaves, a leader's followers all leave (R110). -/
def State.breakGang (s : State) (c : Chan) : State :=
  match (s.chan c).gang with
  | .none => s
  | .follower _ => s.leaveGang c
  | .leader fs => (fs.foldl (fun t f => t.leaveGang f) s).modChan c fun ch => { ch with gang := .none }

/-- A channel enters IDLE: it leaves CLIP, its gang dissolves or loses it, its pin is released, its playhead is gone, and
frame-valid becomes no (R86, R110, R142). -/
def State.enterIdle (s : State) (c : Chan) : State :=
  match (s.chan c).head with
  | none => s
  | some h =>
    let t := s.leaveClip c
    let t := if t.isFollower c then t.unlinkFollower c else t.breakGang c
    (t.movePin h.anchor none).modChan c fun ch => { ch with head := none, frameValid := false }

/-! ### The lever target -/

/-- A channel in SHUTTLE that is no gang follower becomes PAUSED (R94). -/
def State.pauseShuttle (s : State) (c : Chan) : State :=
  match (s.chan c).head with
  | some h => if h.mode = .shuttle && !s.isFollower c then s.steer c Playhead.pause else s
  | none => s

/-- After an event that began in `before`: a channel in SHUTTLE that has stopped being the lever target of a station becomes
PAUSED (R94). -/
def State.settleLevers (s before : State) : State :=
  allStations.foldl (fun t k =>
    match before.leverTarget k with
    | some c => if t.leverTarget k = some c then t else t.pauseShuttle c
    | none => t) s

/-! ### Change of angle -/

/-- Whether an angle is in the angle set of the clip a context plays (R103, R104). -/
def State.clipHasAngle (s : State) (ctx : ClipContext) (a : Angle) : Bool :=
  match s.findClip ctx.clipId ctx.serial with
  | some c => c.angles.contains a
  | none => false

/-- A channel changes to another angle, keeping its moment (R103). End reached becomes no when the position changes
(R120). On a LIVE channel, or a follower of one, R97 names no wanted position, and the clamp indication becomes no (DESIGN
CHOICE, notes/assumptions/41.md). -/
def State.changeAngle (s : State) (c : Chan) (a : Angle) (h : Playhead) : State :=
  let source := if s.isFollower c then ((s.chan (s.leaderOf c)).head.map (·.position)).getD h.position else h.position
  let isLive :=
    if s.isFollower c then (s.chan (s.leaderOf c)).head.map (·.mode) = some .live else h.mode = .live
  let moved := if isLive then (s.liveEnd a h.position, false) else clampTo (s.span a) source
  let mode :=
    match h.mode with
    | .clip ctx => Mode.clip { ctx with endReached := ctx.endReached && moved.1 = h.position }
    | m => m
  s.place c { h with angle := a, position := moved.1, clamp := moved.2, mode := mode }

end Sys2Proof.Machine
end

