-- ==== Sys2Proof/Machine/Playback.lean ====
section
/-! DEFINITION. Machine/Playback.lean: the CLIP state: speed modes and the fit arithmetic (R115), loading a clip (R114), the
advance with its boundaries (R116 to R118), running and stopping (R119, R120), and the cue queue (R122 to R127). -/

namespace Sys2Proof.Machine

/-! ### Speed modes -/

/-- The length of a clip in grains, G = (out − in + 1) × 720 (R115). -/
def Clip.grains (c : Clip) : Nat := (c.outMark.getD c.inMark + 1 - c.inMark) * 720

/-- The fit terms of FIT with duration `d`, and whether the fit is limited (R115). -/
def fitTerms (grains d : Nat) : SpeedMode × Bool :=
  if 2880 < grains / d then (.fit d 2880 0 0, true) else (.fit d (grains / d) (grains % d) 0, false)

/-- The set-up of a speed mode on a clip, and whether a fit was limited (R115). -/
def setUp (c : Clip) : CuePace → SpeedMode × Bool
  | .fixed v => (.fixed v, false)
  | .fit d => fitTerms c.grains d

/-- The speed field at the start of running: s in FIXED, q in FIT (R113). -/
def SpeedMode.baseSpeed : SpeedMode → Int
  | .fixed v => v
  | .fit _ q _ _ => q

/-- A limited fit raises the channel's FIT_LIMITED alert and its fit-limit count (R115, R128). -/
def State.noteLimited (s : State) (c : Chan) (limited : Bool) : State :=
  if limited then
    (s.modChanCounts c fun n => { n with fitLimited := satInc n.fitLimited }).raiseChanAlert c (.fitLimited c)
  else s

/-! ### Entering CLIP -/

/-- A channel enters CLIP on a clip at its in mark (R114, R127), leaving its former state: the use counts change, CUE NEXT
staged becomes no, and the speed mode is set up afresh. -/
def State.enterClip (s : State) (c : Chan) (clip : Clip) (a : Angle) (pace : CuePace) (running : Bool) : State :=
  let t := (s.leaveClip c).addUse clip.id clip.serial
  let mode := setUp clip pace
  let t := t.noteLimited c mode.2
  let moved := clampTo (t.span a) (clip.inMark * 720 : Nat)
  let ctx : ClipContext :=
    { clipId := clip.id, serial := clip.serial, running := running, endReached := false, mode := mode.1 }
  (t.modChan c fun ch => { ch with staged := false }).place c
    { mode := .clip ctx, angle := a, position := moved.1, speed := if running then mode.1.baseSpeed else 0,
      clamp := moved.2, anchor := none }

/-! ### Cues -/

/-- The clip and angle a cue is taken on, when it is valid (R125). -/
def State.validCue (s : State) (q : Cue) : Option (Clip × Angle) :=
  match s.findClip q.clipId q.serial with
  | none => none
  | some clip =>
    let a := q.angle.getD clip.hero
    if (clip.state = .closed || clip.state = .closing) && clip.angles.contains a && (s.span a).isSome then some (clip, a)
    else none

/-- An invalid cue is skipped (R126). -/
def State.skipCue (s : State) (c : Chan) : State :=
  (s.modChanCounts c fun n => { n with cueSkips := satInc n.cueSkips }).raiseChanAlert c (.cueSkipped c)

/-- Take the next cue from a queue of cues: heads are removed and judged until one is valid (R126, R127). Answers whether
a cue was taken. -/
def State.takeCues (s : State) (c : Chan) : List Cue → State × Bool
  | [] => (s.modChan c fun ch => { ch with cues := [] }, false)
  | q :: rest =>
    match s.validCue q with
    | some (clip, a) => ((s.modChan c fun ch => { ch with cues := rest }).enterClip c clip a q.pace true, true)
    | none => (s.skipCue c).takeCues c rest

/-- Take the next cue of a channel (R126). -/
def State.takeNextCue (s : State) (c : Chan) : State × Bool := s.takeCues c (s.chan c).cues

/-! ### The advance in CLIP -/

/-- The step of a running advance and the speed mode after it (R116). -/
def SpeedMode.step : SpeedMode → Int × SpeedMode
  | .fixed v => (v, .fixed v)
  | .fit d q r e => if d ≤ e + r then ((q : Int) + 1, .fit d q r (e + r - d)) else (q, .fit d q r (e + r))

/-- The end hold: the start of the last frame of the clip on the channel's angle, clamped, not running, end reached
(R117). -/
def State.endHold (s : State) (c : Chan) (h : Playhead) (ctx : ClipContext) (outMark : Nat) : State :=
  let pend : Int := ((outMark + 1) * 720 : Nat) - (s.frameSpan h.angle : Nat)
  let moved := clampTo (s.span h.angle) pend
  s.place c { h with mode := .clip { ctx with running := false, endReached := true }, speed := 0,
                     position := moved.1, clamp := moved.2 }

/-- A running advance reaches the end boundary: the next cue is taken, or the end hold (R117, R126). -/
def State.endBoundary (s : State) (c : Chan) (h : Playhead) (ctx : ClipContext) (outMark : Nat) : State :=
  let t := s.modChan c fun ch => { ch with staged := false }
  let r := t.takeNextCue c
  if r.2 then r.1 else r.1.endHold c h ctx outMark

/-- A running advance of a channel in CLIP with its boundaries and clamps (R116 to R118). The speed field takes the step,
also the 2,881 of a carry at q = 2,880, past the range of R85 (DEDUCED, notes/assumptions/37.md). -/
def State.clipAdvance (s : State) (c : Chan) (h : Playhead) (ctx : ClipContext) (clip : Clip) : State :=
  let outMark := clip.outMark.getD clip.inMark
  let moved := ctx.mode.step
  let step := moved.1
  let ctx := { ctx with mode := moved.2, endReached := false }
  let h := { h with mode := .clip ctx, speed := step }
  let wanted : Int := (h.position : Int) + step
  if step = 0 then s.place c { h with clamp := false }
  else if 0 < step then
    if ((outMark + 1) * 720 : Nat) ≤ wanted then s.endBoundary c h ctx outMark
    else
      let to' := clampTo (s.span h.angle) wanted
      s.place c { h with position := to'.1, clamp := to'.2 }
  else if wanted < (clip.inMark * 720 : Nat) then
    let to' := clampTo (s.span h.angle) (clip.inMark * 720 : Nat)
    s.place c { h with mode := .clip { ctx with running := false }, speed := 0, position := to'.1, clamp := to'.2 }
  else
    let to' := clampTo (s.span h.angle) wanted
    if to'.2 && decide (wanted < to'.1) then
      s.place c { h with mode := .clip { ctx with running := false }, speed := 0, position := to'.1, clamp := to'.2 }
    else s.place c { h with position := to'.1, clamp := to'.2 }

/-! ### Running and stopping -/

/-- A channel in CLIP stops: running becomes no and the speed field 0 (R120). -/
def Playhead.stopRunning (h : Playhead) (ctx : ClipContext) : Playhead :=
  if ctx.running then { h with mode := .clip { ctx with running := false }, speed := 0 } else h

/-- PLAY on a channel in CLIP (R119): running yes and end reached no, with a fresh speed mode when the PLAY carries one. On
a channel already running a PLAY without one changes nothing, and one with a duration puts the new q in the speed field at
once, where R113 keeps the step of the most recent advance (DESIGN CHOICE, notes/assumptions/42.md). -/
def State.playClip (s : State) (c : Chan) (ctx : ClipContext) (pace : Option CuePace) : State :=
  match pace with
  | none =>
    if ctx.running then s
    else
      s.steer c fun h =>
        { h with mode := .clip { ctx with running := true, endReached := false }, speed := ctx.mode.baseSpeed }
  | some p =>
    match s.findClip ctx.clipId ctx.serial with
    | none => s
    | some clip =>
      let mode := setUp clip p
      (s.noteLimited c mode.2).steer c fun h =>
        { h with mode := .clip { ctx with running := true, endReached := false, mode := mode.1 },
                 speed := mode.1.baseSpeed }

/-! ### LOAD CLIP -/

/-- The fit bytes of a LOAD CLIP answer: q, r and limited in FIT; free bytes in FIXED (11.2, notes/assumptions/9.md). -/
def State.fitBytes (s : State) (mode : SpeedMode) (limited : Bool) : List Byte :=
  match mode with
  | .fit _ q r _ => beBytes 2 q ++ beBytes 2 r ++ [boolByte limited]
  | .fixed _ => (List.range 5).map fun i => s.freeByte (.fixedFitTerm i)

/-- The angle of a LOAD CLIP or CUE ADD: absent for 0 (11.3). -/
def namedAngle (angle : Byte) : Option Angle := angleOf? angle.toNat

/-- A LOAD CLIP or CUE ADD names a clip id outside 1 to 512, or an angle other than none outside 1 to 8 (R114, R122). -/
def badClipOrAngle (id : BitVec 16) (angle : Byte) : Bool :=
  id = 0 || decide (512 < id.toNat) || decide (8 < angle.toNat)

/-- LOAD CLIP after its argument and claim checks (R114, checks 3 to 7). -/
def loadClipRule (stn : Station) (id serial : BitVec 16) (angle : Byte) (pace : Pace) (c : Chan) (s : State) :
    State × Reply :=
  if s.isFollower c then (s, .plain .wrongState)
  else
    match s.findClip id.toNat serial.toNat with
    | none => (s, .plain .noClip)
    | some clip =>
      if clip.state != .closed && clip.state != .closing then (s, .plain .wrongState)
      else
        let a := (namedAngle angle).getD clip.hero
        if !clip.angles.contains a then (s, .plain .badArgument)
        else if (s.span a).isNone then (s, .plain .noMaterial)
        else
          let p := cuePace (s.setting stn).playPreset pace
          let t := s.enterClip c clip a p false
          let position := ((t.chan c).head.map (·.position)).getD 0
          (t, .okWith (angleByte a :: (beBytes 4 (position / 720) ++ beBytes 2 (position % 720) ++
            s.fitBytes (setUp clip p).1 (setUp clip p).2)))

/-- Start LOAD CLIP (R114). -/
def startLoadClip (stn : Station) (channel : Byte) (id serial : BitVec 16) (angle : Byte) (pace : Pace) (s : State) :
    State :=
  startCommand stn .loadClip true (fun s =>
    if badClipOrAngle id angle then (s, .plain .badArgument)
    else onChannel stn channel (loadClipRule stn id serial angle pace) s) s

/-! ### CUE ADD, CUE CLEAR, CUE NEXT -/

/-- The greatest length of a cue queue (section 6.6). -/
def cueCapacity : Nat := 12

/-- CUE ADD after its argument and claim checks (R122). -/
def cueAddRule (stn : Station) (id serial : BitVec 16) (angle : Byte) (pace : Pace) (c : Chan) (s : State) :
    State × Reply :=
  if cueCapacity ≤ (s.chan c).cues.length then (s, .plain .queueFull)
  else
    let q : Cue :=
      { clipId := id.toNat, serial := serial.toNat, angle := namedAngle angle,
        pace := cuePace (s.setting stn).playPreset pace }
    (s.modChan c fun ch => { ch with cues := ch.cues ++ [q] }, .okWith (beBytes 1 ((s.chan c).cues.length + 1)))

/-- Start CUE ADD (R122). -/
def startCueAdd (stn : Station) (channel : Byte) (id serial : BitVec 16) (angle : Byte) (pace : Pace) (s : State) :
    State :=
  startCommand stn .cueAdd true (fun s =>
    if badClipOrAngle id angle then (s, .plain .badArgument)
    else onChannel stn channel (cueAddRule stn id serial angle pace) s) s

/-- Start CUE CLEAR (R123). -/
def startCueClear (stn : Station) (channel : Byte) (s : State) : State :=
  startCommand stn .cueClear true (onChannel stn channel fun c s =>
    (s.modChan c fun ch => { ch with cues := [], staged := false }, .plain .ok)) s

/-- Whether a channel is running in CLIP. -/
def Channel.isRunningClip (ch : Channel) : Bool :=
  match ch.head with
  | some h =>
    match h.mode with
    | .clip ctx => ctx.running
    | _ => false
  | none => false

/-- CUE NEXT on a channel (R124): staged on a channel running in CLIP, else the next cue is taken at once. Answers whether
it was staged or a cue was taken. -/
def State.cueNext (s : State) (c : Chan) : State × Bool :=
  if (s.chan c).isRunningClip then (s.modChan c fun ch => { ch with staged := true }, true)
  else (s.modChan c fun ch => { ch with staged := false }).takeNextCue c

/-- Start CUE NEXT (R124). -/
def startCueNext (stn : Station) (channel : Byte) (s : State) : State :=
  startCommand stn .cueNext true (onChannel stn channel fun c s =>
    if s.isFollower c then (s, .plain .wrongState)
    else ((s.cueNext c).1, .plain (if (s.cueNext c).2 then .ok else .noClip))) s

/-- LOAD_CLIP. -/
def execLoadClip (stn : Station) (channel : Byte) (id serial : BitVec 16) (angle : Byte) (pace : Pace) (s : State) :
    Host.Outcome State Fault Refusal :=
  act (fun s => s.inEvent (startLoadClip stn channel id serial angle pace)) s

/-- CUE_ADD. -/
def execCueAdd (stn : Station) (channel : Byte) (id serial : BitVec 16) (angle : Byte) (pace : Pace) (s : State) :
    Host.Outcome State Fault Refusal :=
  act (startCueAdd stn channel id serial angle pace) s

/-- CUE_CLEAR. -/
def execCueClear (stn : Station) (channel : Byte) (s : State) : Host.Outcome State Fault Refusal :=
  act (startCueClear stn channel) s

/-- CUE_NEXT. -/
def execCueNext (stn : Station) (channel : Byte) (s : State) : Host.Outcome State Fault Refusal :=
  act (fun s => s.inEvent (startCueNext stn channel)) s

end Sys2Proof.Machine
end

