-- ==== Sys2Proof/Machine/Channels.lean ====
section
/-! DEFINITION. Machine/Channels.lean: PLAY, PAUSE and LIVE (R99 to R101), loading, angles and unloading (R102 to R106),
gangs (R108, R110), and the lever and the jog (R90 to R93, R98). -/

namespace Sys2Proof.Machine

/-! ### PLAY, PAUSE, LIVE -/

/-- What a PLAY carries, as a speed mode: none, FIXED limited to ±2,880, or FIT limited to 1 to 65,535 (R99, R119). -/
def playPace : Pace → Option CuePace
  | .none => none
  | .speed v => some (.fixed (limitSpeed v.toInt))
  | .duration d => some (.fit (max 1 d.toNat))

/-- The speed of a PLAY outside CLIP: the commanded speed, or the play preset; a duration is taken as none (R99, R187). -/
def playSpeed (preset : Int) : Option CuePace → Int
  | some (.fixed v) => v
  | _ => preset

/-- PLAY on a channel (R99, R119). -/
def State.play (s : State) (c : Chan) (preset : Int) (pace : Option CuePace) : State :=
  match (s.chan c).head with
  | none => s
  | some h =>
    match h.mode with
    | .clip ctx => s.playClip c ctx pace
    | _ => s.steer c fun h => { h with mode := .play, speed := playSpeed preset pace }

/-- A PLAY taken while the lever is engaged sets the armed flag to no, when it acts on the lever target (R93). -/
def State.disarm (s : State) (stn : Station) (c : Chan) : State :=
  if (s.link stn).engaged && decide (s.leverTarget stn = some c) then s.modLink stn fun l => { l with armed := false }
  else s

/-- PAUSE on a channel (R100, R120). -/
def State.pause (s : State) (c : Chan) : State :=
  match (s.chan c).head with
  | none => s
  | some h =>
    match h.mode with
    | .clip ctx => if ctx.running then s.steer c fun h => h.stopRunning ctx else s
    | .paused => s
    | _ => s.steer c Playhead.pause

/-- LIVE on a channel (R101). -/
def State.goLive (s : State) (c : Chan) : State :=
  match (s.chan c).head with
  | none => s
  | some h =>
    let t := s.leaveClip c
    t.place c { h with mode := .live, position := t.liveEnd h.angle h.position, speed := 720, clamp := false }

/-- The rule of a command that acts on a channel's leader and gives WRONG_STATE to an IDLE channel (R88, R99 to R101). -/
def onLeader (rule : Chan → State → State) (c : Chan) (s : State) : State × Reply :=
  match (s.chan (s.leaderOf c)).head with
  | none => (s, .plain .wrongState)
  | some _ => (rule (s.leaderOf c) s, .plain .ok)

/-- Start PLAY (R99). -/
def startPlay (stn : Station) (channel : Byte) (pace : Pace) (s : State) : State :=
  startCommand stn .play true
    (onChannel stn channel (onLeader fun c s =>
      (s.disarm stn c).play c (s.setting stn).playPreset (playPace pace))) s

/-- Start PAUSE (R100). -/
def startPause (stn : Station) (channel : Byte) (s : State) : State :=
  startCommand stn .pause true (onChannel stn channel (onLeader fun c s => s.pause c)) s

/-- Start LIVE (R101). -/
def startLive (stn : Station) (channel : Byte) (s : State) : State :=
  startCommand stn .live true (onChannel stn channel (onLeader fun c s => s.goLive c)) s

/-! ### Loading, angles and unloading -/

/-- LOAD after the channel checks (R102). -/
def loadRule (angle : Byte) (houseFrame : BitVec 32) (c : Chan) (s : State) : State × Reply :=
  match angleOf? angle.toNat with
  | none => (s, .plain .badArgument)
  | some a =>
    if s.isFollower c then (s, .plain .wrongState)
    else if (s.span a).isNone then (s, .plain .noMaterial)
    else
      let t := s.leaveClip c
      let moved := clampTo (t.span a) (houseFrame.toNat * 720 : Nat)
      (t.place c { mode := .paused, angle := a, position := moved.1, speed := 0, clamp := moved.2, anchor := none },
        .plain .ok)

/-- Start LOAD (R102). -/
def startLoad (stn : Station) (channel angle : Byte) (houseFrame : BitVec 32) (s : State) : State :=
  startCommand stn .load true (onChannel stn channel (loadRule angle houseFrame)) s

/-- ANGLE after the channel checks (R103). The checks are made in the order of R103's text, so an angle without a span that
is also outside the clip's set gives NO_MATERIAL (DESIGN CHOICE, notes/assumptions/50.md). -/
def angleRule (angle : Byte) (c : Chan) (s : State) : State × Reply :=
  match angleOf? angle.toNat, (s.chan c).head with
  | none, _ => (s, .plain .badArgument)
  | some _, none => (s, .plain .wrongState)
  | some a, some h =>
    if (s.span a).isNone then (s, .plain .noMaterial)
    else
      match h.mode with
      | .clip ctx =>
        if !s.clipHasAngle ctx a then (s, .plain .badArgument)
        else if a = h.angle then (s, .plain .ok)
        else (s.changeAngle c a h, .plain .ok)
      | _ => if a = h.angle then (s, .plain .ok) else (s.changeAngle c a h, .plain .ok)

/-- Start ANGLE (R103). -/
def startAngle (stn : Station) (channel angle : Byte) (s : State) : State :=
  startCommand stn .angle true (onChannel stn channel (angleRule angle)) s

/-- Start UNLOAD (R105). A gang that loses the channel may change a lever target (R94, R110). -/
def startUnload (stn : Station) (channel : Byte) (s : State) : State :=
  startCommand stn .unload true (onChannel stn channel fun c s =>
    ((s.enterIdle c).settleLevers s, .plain .ok)) s

/-- Start BLACK (R106). -/
def startBlack (stn : Station) (channel : Byte) (s : State) : State :=
  startCommand stn .black true (onChannel stn channel fun c s =>
    (s.modChan c fun ch => { ch with black := true }, .plain .ok)) s

/-- Start UNBLACK (R106). -/
def startUnblack (stn : Station) (channel : Byte) (s : State) : State :=
  startCommand stn .unblack true (onChannel stn channel fun c s =>
    (s.modChan c fun ch => { ch with black := false }, .plain .ok)) s

/-! ### Gangs -/

/-- The members a GANG names: the leader, and the followers ascending, when every number is in range and none is named
twice (R108, check 1). -/
def gangMembers (leader : Byte) (followers : List Byte) : Option (Chan × List Chan) :=
  match chanOf? leader.toNat, followers.mapM (fun f => chanOf? f.toNat) with
  | some l, some fs =>
    if fs ≠ [] ∧ (l :: fs).Nodup then some (l, allChans.filter fs.contains) else none
  | _, _ => none

/-- The claim checks of a GANG on its members, leader first: each member passes R146, and all are claimed by the same
station or all unclaimed (R108, check 2, notes/assumptions/14.md). -/
def State.gangRefusal (s : State) (stn : Station) (members : List Chan) : Option Result :=
  match members.findSome? (s.claimRefusal stn) with
  | some r => some r
  | none =>
    if members.all (fun c => s.holder c = some stn) || members.all (fun c => s.holder c = none) then none
    else some .notClaimed

/-- The members of a GANG are joined: each follower leaves CLIP and takes the leader's state and position (R108, R109). -/
def State.joinGang (s : State) (l : Chan) (fs : List Chan) : State :=
  let t := fs.foldl (fun t f => (t.leaveClip f).modChan f fun ch => { ch with gang := .follower l }) s
  (t.modChan l fun ch => { ch with gang := .leader fs }).moveFollowers l

/-- GANG (R108). -/
def gangRule (stn : Station) (leader : Byte) (followers : List Byte) (s : State) : State × Reply :=
  match gangMembers leader followers with
  | none => (s, .plain .badArgument)
  | some (l, fs) =>
    match s.gangRefusal stn (l :: fs) with
    | some r => (s, .plain r)
    | none =>
      if (l :: fs).any fun c => (s.chan c).head.isNone || (s.chan c).gang != .none then (s, .plain .wrongState)
      else ((s.joinGang l fs).settleLevers s, .plain .ok)

/-- Start GANG (R108). -/
def startGang (stn : Station) (leader : Byte) (followers : List Byte) (s : State) : State :=
  startCommand stn .gang (decide (1 ≤ followers.length ∧ followers.length ≤ 3)) (gangRule stn leader followers) s

/-- Start UNGANG (R110). -/
def startUngang (stn : Station) (channel : Byte) (s : State) : State :=
  startCommand stn .ungang true (onChannel stn channel fun c s => ((s.breakGang c).settleLevers s, .plain .ok)) s

/-! ### The lever and the jog -/

/-- The lever speed of a lever value with a curve (R90). -/
def leverSpeed (curve : Vector Nat 11) (lever : Int) : Int :=
  let m := lever.natAbs
  if m ≤ 3 then 0
  else
    let k := if 100 ≤ m then 9 else m / 10
    let lo := curve.toList.getD k 0
    let hi := curve.toList.getD (k + 1) 0
    lever.sign * ((lo + (hi - lo) * (m - 10 * k) / 10 : Nat) : Int)

/-- What the judgement of R91 finds in an accepted desk frame. -/
inductive Engagement where
  | engages
  | disengages
  | neither
  deriving DecidableEq, Repr

/-- The judgement of engagement (R91): engaged and confirm run after it, and what it finds. -/
def judgeLever (engaged : Bool) (run : Nat) (lever : Int) : Bool × Nat × Engagement :=
  let out := decide (3 < lever.natAbs)
  if engaged = out then (engaged, 0, .neither)
  else if run = 0 then (engaged, 1, .neither)
  else if out then (true, 0, .engages)
  else (false, 0, .disengages)

/-- The states an engagement takes into SHUTTLE (R92). -/
def Mode.takesLever : Mode → Bool
  | .paused | .play | .live | .clip _ => true
  | .shuttle | .follow => false

/-- An engagement takes the lever target into SHUTTLE (R92). -/
def State.engage (s : State) (c : Chan) (speed : Int) : State :=
  match (s.chan c).head with
  | none => s
  | some h =>
    if h.mode.takesLever then
      (s.leaveClip c).steer c fun h => { h with mode := .shuttle, speed := speed }
    else s

/-- The lever speed of a frame reaches a lever target in SHUTTLE (R92). -/
def State.shuttleSpeed (s : State) (c : Chan) (speed : Int) : State :=
  match (s.chan c).head with
  | some h => if h.mode = .shuttle then s.steer c fun h => { h with speed := speed } else s
  | none => s

/-- The lever work of an accepted desk frame: engagement is judged, then the lever speed applied (R87, R91 to R93). -/
def State.leverWork (s : State) (k : Station) (lever : Int) : State :=
  let l := s.link k
  let judged := judgeLever l.engaged l.confirmRun lever
  let t := s.modLink k fun l =>
    { l with engaged := judged.1, confirmRun := judged.2.1,
             armed := if judged.2.2 = .disengages then true else l.armed }
  match s.leverTarget k with
  | none => t
  | some c =>
    let speed := leverSpeed s.curve lever
    let t :=
      match judged.2.2 with
      | .engages => if l.armed then t.engage c speed else t
      | .disengages => t.pauseShuttle c
      | .neither => t
    t.shuttleSpeed c speed

/-- A jog of a channel by `n` angle frames: it stops, and steps by whole frames of its angle, clamped (R98, R120). -/
def State.jogHead (s : State) (c : Chan) (n : Int) : State :=
  match (s.chan c).head with
  | none => s
  | some h =>
    let fs := s.frameSpan h.angle
    let wanted : Int := (((h.position / fs : Nat) : Int) + n) * (fs : Int)
    let moved := clampTo (s.span h.angle) wanted
    let h :=
      match h.mode with
      | .clip ctx => h.stopRunning ctx
      | .play | .live | .shuttle => h.pause
      | .paused | .follow => h
    let mode :=
      match h.mode with
      | .clip ctx => Mode.clip { ctx with endReached := false }
      | m => m
    s.place c { h with mode := mode, position := moved.1, clamp := moved.2 }

/-- The jog of an accepted desk frame (R87, R98). A nonzero jog without a lever target, or on an IDLE one, is dropped. -/
def State.jogWork (s : State) (k : Station) (n : Int) : State :=
  if n = 0 then s
  else
    match s.leverTarget k with
    | none => s.keyIgnored k
    | some c =>
      if (s.chan c).head.isNone then s.keyIgnored k
      else if (s.link k).engaged then s
      else s.jogHead c n

/-- The angle ANGLE NEXT takes: the next one in turn with a span, in CLIP of the clip's angle set (R104). -/
def State.nextAngle (s : State) (h : Playhead) : Option Angle :=
  let order := allAngles.filter (h.angle < ·) ++ allAngles.filter (· < h.angle)
  order.find? fun a =>
    (s.span a).isSome &&
      match h.mode with
      | .clip ctx => s.clipHasAngle ctx a
      | _ => true

/-- PLAY. -/
def execPlay (stn : Station) (channel : Byte) (pace : Pace) (s : State) : Host.Outcome State Fault Refusal :=
  act (startPlay stn channel pace) s

/-- PAUSE. -/
def execPause (stn : Station) (channel : Byte) (s : State) : Host.Outcome State Fault Refusal :=
  act (startPause stn channel) s

/-- LIVE. -/
def execLive (stn : Station) (channel : Byte) (s : State) : Host.Outcome State Fault Refusal :=
  act (fun s => s.inEvent (startLive stn channel)) s

/-- LOAD. -/
def execLoad (stn : Station) (channel angle : Byte) (houseFrame : BitVec 32) (s : State) :
    Host.Outcome State Fault Refusal :=
  act (fun s => s.inEvent (startLoad stn channel angle houseFrame)) s

/-- ANGLE. -/
def execAngle (stn : Station) (channel angle : Byte) (s : State) : Host.Outcome State Fault Refusal :=
  act (startAngle stn channel angle) s

/-- UNLOAD. -/
def execUnload (stn : Station) (channel : Byte) (s : State) : Host.Outcome State Fault Refusal :=
  act (fun s => s.inEvent (startUnload stn channel)) s

/-- BLACK. -/
def execBlack (stn : Station) (channel : Byte) (s : State) : Host.Outcome State Fault Refusal :=
  act (startBlack stn channel) s

/-- UNBLACK. -/
def execUnblack (stn : Station) (channel : Byte) (s : State) : Host.Outcome State Fault Refusal :=
  act (startUnblack stn channel) s

/-- GANG. -/
def execGang (stn : Station) (leader : Byte) (followers : List Byte) (s : State) : Host.Outcome State Fault Refusal :=
  act (fun s => s.inEvent (startGang stn leader followers)) s

/-- UNGANG. -/
def execUngang (stn : Station) (channel : Byte) (s : State) : Host.Outcome State Fault Refusal :=
  act (startUngang stn channel) s

end Sys2Proof.Machine
end

