-- ==== Sys2Proof/Machine/Fetch.lean ====
section
/-! DEFINITION. Machine/Fetch.lean: frame selection (R131 to R135), the issue of fetch requests (R136, R137), and fetch
completions (R138 to R142). -/

namespace Sys2Proof.Machine

/-! ### Frame selection -/

/-- A frame's place in the store: its page and slot index (R50). -/
structure FramePlace where
  page : Nat
  index : Nat
  deriving DecidableEq, Repr

/-- The slot address of a place (section 7.4). -/
def FramePlace.slot (p : FramePlace) : Nat := p.page * 64 + p.index

/-- What selection finds for a channel that is not black: frame A, frame B if one is blended, and the weight. -/
structure Selected where
  placeA : FramePlace
  placeB : Option FramePlace
  weight : Nat
  deriving DecidableEq, Repr

/-- The blend setting of a channel: its holder's, or station 0's while it is unclaimed (R132). -/
def State.blendOf (s : State) (c : Chan) : Bool := (s.setting ((s.holder c).getD 0)).blend

/-- The weight of a position, 0 when blending is off (R132). -/
def blendWeight (blend : Bool) (position fs : Nat) : Nat := if blend then position % fs * 16 / fs else 0

/-- The nearest frame of a page at or before a slot index that is not faulted (R134). -/
def goodIndex (faulted : List Nat) (index : Nat) : Option Nat :=
  ((List.range (index + 1)).filter fun i => !faulted.contains i).getLast?

/-- Frame B for frame number `frame`: held, not faulted, and at or below the live edge (R135). -/
def frameB (l : List Page) (liveEdge : Option Nat) (frame : Nat) : Option FramePlace :=
  match lookup l frame, liveEdge with
  | .held p i _ false _, some e => if frame ≤ e then some { page := p.number, index := i } else none
  | _, _ => none

/-- Frame selection on a record list from a position (R132 to R135); none when no frame may be shown (R134). -/
def selectFrames (l : List Page) (liveEdge : Option Nat) (blend : Bool) (position fs : Nat) : Option Selected :=
  let frame := position / fs
  match lowerPage l frame with
  | none => none
  | some p =>
    let isHeld := decide (frame < p.firstFrame + p.count)
    let index := if isHeld then frame - p.firstFrame else p.count - 1
    match goodIndex p.faulted index with
    | none => none
    | some i =>
      let w := if isHeld && i = index then blendWeight blend position fs else 0
      match (if w = 0 then none else frameB l liveEdge (frame + 1)) with
      | some b => some { placeA := { page := p.number, index := i }, placeB := some b, weight := w }
      | none => some { placeA := { page := p.number, index := i }, placeB := none, weight := 0 }

/-- Frame selection for a channel with a playhead (R131, R132). -/
def State.selectFor (s : State) (c : Chan) (h : Playhead) : Option Selected :=
  selectFrames (s.pageList h.angle) (s.recorder h.angle).liveEdge (s.blendOf c) h.position (s.frameSpan h.angle)

/-! ### Requests -/

/-- The tag the next request of a channel takes (R136). -/
def Channel.takenTag (ch : Channel) : Nat :=
  if ch.inFlight.any fun e => e.tag = ch.nextTag then (ch.nextTag + 1) % 256 else ch.nextTag

/-- Issue a request, or count a late skip when two fetches are in flight (R136, R137). -/
def State.issue (s : State) (c : Chan) (sel : Option Selected) : State :=
  let ch := s.chan c
  if 2 ≤ ch.inFlight.length then s.modChanCounts c fun n => { n with lateSkips := satInc n.lateSkips }
  else
    let tag := ch.takenTag
    let pageA := sel.map (·.placeA.page)
    let pageB := (sel.bind (·.placeB)).bind fun b => if some b.page = pageA then none else some b.page
    let entry : FetchEntry := { tag := tag, black := sel.isNone, pageA := pageA, pageB := pageB, superseded := false }
    let request : FetchRequest :=
      { channel := c, tag := tag, slotA := sel.map (·.placeA.slot), slotB := (sel.bind (·.placeB)).map (·.slot),
        weight := (sel.map (·.weight)).getD 0, black := sel.isNone }
    let t := (s.modPage? pageA fun p => { p with fetchHolds := p.fetchHolds + 1 }).modPage? pageB
      fun p => { p with fetchHolds := p.fetchHolds + 1 }
    let t := t.modChan c fun ch =>
      { ch with inFlight := ch.inFlight ++ [entry], nextTag := (tag + 1) % 256,
                counts := { ch.counts with issued := satInc ch.counts.issued } }
    { t with fetchOut := t.fetchOut ++ [request] }

/-- The request due for a channel at a house frame: black, or selected, or none when no frame may be shown (R131, R134,
R137). -/
def State.requestFor (s : State) (c : Chan) : State :=
  match (s.chan c).head with
  | none => s
  | some h =>
    if (s.chan c).black then s.issue c none
    else
      match s.selectFor c h with
      | some sel => s.issue c (some sel)
      | none => s.modChanCounts c fun n => { n with unshown := satInc n.unshown }

/-! ### Completions -/

/-- The fetches in flight before and after the first entry with a tag, and that entry (R138). -/
def splitTag (tag : Nat) : List FetchEntry → Option (List FetchEntry × FetchEntry × List FetchEntry)
  | [] => none
  | e :: rest =>
    if e.tag = tag then some ([], e, rest)
    else (splitTag tag rest).map fun r => (e :: r.1, r.2.1, r.2.2)

/-- What a matched OK completion does to its channel: the shown output, or a stale completion; older entries still in
flight become superseded (R140). -/
def completeOk (e : FetchEntry) (older newer : List FetchEntry) (ch : Channel) : Channel :=
  if e.superseded then
    { ch with inFlight := older ++ newer, counts := { ch.counts with stale := satInc ch.counts.stale } }
  else
    { ch with inFlight := older.map (fun o => { o with superseded := true }) ++ newer,
              lastShown := some e.tag, frameValid := true }

/-- What a matched FAULT completion does to its channel (R141). One for a superseded fetch raises the stale completions too:
the table of R130 counts each completion taken for a superseded fetch and names no status (DEDUCED,
notes/assumptions/46.md). -/
def completeFault (e : FetchEntry) (older newer : List FetchEntry) (ch : Channel) : Channel :=
  { ch with
      inFlight := older ++ newer
      frameValid := if e.superseded then ch.frameValid else false
      counts := { ch.counts with
        readFaults := if e.black then ch.counts.readFaults else satInc ch.counts.readFaults
        stale := if e.superseded then satInc ch.counts.stale else ch.counts.stale } }

/-- A fetch completion for a channel (R138 to R141). -/
def State.fetchCompleted (s : State) (c : Chan) (tag : Nat) (ok : Bool) : State :=
  match splitTag tag (s.chan c).inFlight with
  | none => s.modChanCounts c fun n => { n with unmatched := satInc n.unmatched }
  | some (older, e, newer) =>
    let t := s.releaseFetch e
    if ok then t.modChan c (completeOk e older newer)
    else
      let t := t.modChan c (completeFault e older newer)
      if e.black then t else t.raiseChanAlert c (.readFault c)

/-- FETCH_COMPLETION (R138, R139); a status other than 0 is FAULT (11.4). -/
def execFetchCompletion (channel : BitVec 3) (tag : BitVec 8) (status : BitVec 2) (s : State) :
    Host.Outcome State Fault Refusal :=
  act (fun s =>
    match chanOf? channel.toNat with
    | none => { s with unmatchedPartWide := satInc s.unmatchedPartWide }
    | some c => s.fetchCompleted c tag.toNat (status == 0)) s

end Sys2Proof.Machine
end

