-- ==== Sys2Proof/Machine/Claims.lean ====
section
/-! DEFINITION. Machine/Claims.lean: selection (R147), claims, cool-downs and releases (R148 to R156), and program and
preview (R157, R158). -/

namespace Sys2Proof.Machine

/-! ### Change of holder -/

/-- The gang and lever effects of a change of holder of a channel in an event that began in `before` (R153). -/
def State.holderChanged (s before : State) (c : Chan) : State := (s.breakGang c).settleLevers before

/-- A station's selected channel becomes none if it is this channel (R153). -/
def State.deselect (s : State) (k : Station) (c : Chan) : State :=
  s.modLink k fun l => { l with selected := if l.selected = some c then none else l.selected }

/-- A grant of a channel to a station (R150, R153). -/
def State.grant (s : State) (c : Chan) (k : Station) : State :=
  let t := (s.setHolder c (some k)).setPendingClaim k none
  let t := t.answerClaim k c .ok
  let t := if k = 0 then t else t.deselect 0 c
  let t := t.modLink k fun l => { l with selected := if l.selected.isNone then some c else l.selected }
  t.holderChanged s c

/-- A station enters cool-down for a channel, or its run there becomes 0 (R154). -/
def State.enterCoolDown (s : State) (k : Station) (c : Chan) : State := s.setCoolDown k c (some 0)

/-- The release of a channel its holder `k` gives up or loses (R153 to R156). -/
def State.releaseChan (s : State) (k : Station) (c : Chan) : State :=
  ((s.setHolder c none).deselect k c).holderChanged s c

/-- Every channel a station holds is released, without cool-down, and its pending claim ends with TIMEOUT (R156). -/
def State.releaseStation (s : State) (k : Station) : State :=
  let t := allChans.foldl (fun t c => if t.holder c = some k then t.releaseChan k c else t) s
  match t.pendingClaim k with
  | some p => (t.setPendingClaim k none).answerClaim k p.channel .timeout
  | none => t

/-! ### The arbiter's house frame work -/

/-- The end of a cool-down at the raise of its unclaimed run from 1 to 2 (R149). -/
def State.endCoolDown (s : State) (k : Station) (c : Chan) : State :=
  match s.coolDownRun k c with
  | some run => if 1 ≤ run && (s.holder c).isNone then s.setCoolDown k c none else s
  | none => s

/-- The update of one cool-down entry at a house frame (R149). A grant made at the first unclaimed house frame leaves the run
at 1, as example 8.7 has it, until the next update finds the channel held and sets it to 0 (DEDUCED,
notes/assumptions/44.md). -/
def State.updateCoolDown (s : State) (k : Station) (c : Chan) : State :=
  match s.coolDownRun k c with
  | none => s
  | some run =>
    if (s.holder c).isSome then s.setCoolDown k c (some 0)
    else if 1 ≤ run then s.endCoolDown k c
    else s.setCoolDown k c (some (run + 1))

/-- The station a channel is granted to: the lowest-numbered one that asks for it and is not in cool-down for it (R150). -/
def State.grantee (s : State) (c : Chan) : Option Station :=
  allStations.find? fun k => (s.pendingClaim k).map (·.channel) = some c && (s.coolDownRun k c).isNone

/-- The grant of one channel at a house frame (R150). -/
def State.grantChan (s : State) (c : Chan) : State :=
  if (s.holder c).isSome then s
  else
    match s.grantee c with
    | some k => s.grant c k
    | none => s

/-- The age at which a pending claim leaves the list (R151). -/
def claimLimit : Nat := 50

/-- A pending claim times out at the raise of its age to 50 (R151). -/
def State.timeOutClaim (s : State) (k : Station) : State :=
  match s.pendingClaim k with
  | some p =>
    if claimLimit ≤ p.age + 1 then (s.setPendingClaim k none).answerClaim k p.channel .timeout else s
  | none => s

/-- The age of a pending claim rises by 1 at a house frame (R151). -/
def State.ageClaim (s : State) (k : Station) : State :=
  match s.pendingClaim k with
  | some p =>
    if claimLimit ≤ p.age + 1 then s.timeOutClaim k else s.setPendingClaim k (some { p with age := p.age + 1 })
  | none => s

/-- The arbiter's reaction to a house frame event: cool-downs, then grants, then ages (R149 to R151). The channels are
granted in ascending order (DESIGN CHOICE, notes/assumptions/48.md). -/
def State.arbiterWork (s : State) : State :=
  let t := allStations.foldl (fun t k => allChans.foldl (fun t c => t.updateCoolDown k c) t) s
  let t := allChans.foldl (fun t c => t.grantChan c) t
  allStations.foldl (fun t k => t.ageClaim k) t

/-! ### SELECT, CLAIM, CANCEL, RELEASE, FORCE RELEASE -/

/-- SELECT after the claim check (R147). -/
def selectRule (stn : Station) (wanted : Option Chan) (s : State) : State × Reply :=
  ((s.modLink stn fun l => { l with selected := wanted }).settleLevers s, .plain .ok)

/-- Start SELECT; channel 0 selects none (R147, R187). -/
def startSelect (stn : Station) (channel : Byte) (s : State) : State :=
  startCommand stn .select true (fun s =>
    if channel = 0 then selectRule stn none s
    else onChannel stn channel (fun c s => selectRule stn (some c) s) s) s

/-- CLAIM (R148). -/
def claimRule (stn : Station) (channel : Byte) (s : State) : State × Reply :=
  match chanOf? channel.toNat with
  | none => (s, .plain .badArgument)
  | some c =>
    if s.holder c = some stn then (s, .okWith [chanByte c])
    else (s.setPendingClaim stn (some { channel := c, age := 0 }), { result := none, data := [] })

/-- Start CLAIM (R148). -/
def startClaim (stn : Station) (channel : Byte) (s : State) : State :=
  startCommand stn .claim true (claimRule stn channel) s

/-- CANCEL: the pending claim ends with CANCELLED, or a running listing stops, or there is nothing to end (R152, R173). -/
def cancelRule (stn : Station) (s : State) : State × Reply :=
  match s.pendingClaim stn with
  | some p => (s.setPendingClaim stn none, .okWith [chanByte p.channel, 1])
  | none =>
    let data := [s.freeByte .cancelChannel, 0]
    if (s.link stn).listing = .stopped then (s, { result := some .nothingPending, data := data })
    else (s.modLink stn fun l => { l with listing := .stopped }, .okWith data)

/-- Start CANCEL (R152). -/
def startCancel (stn : Station) (s : State) : State := startCommand stn .cancel true (cancelRule stn) s

/-- RELEASE after the claim check: a held channel is given up with cool-down; a station 0 RELEASE of an unclaimed channel
changes nothing (R154). -/
def releaseRule (stn : Station) (c : Chan) (s : State) : State × Reply :=
  if s.holder c = some stn then ((s.releaseChan stn c).enterCoolDown stn c, .plain .ok) else (s, .plain .ok)

/-- Start RELEASE (R154). -/
def startRelease (stn : Station) (channel : Byte) (s : State) : State :=
  startCommand stn .release true (onChannel stn channel (releaseRule stn)) s

/-- FORCE RELEASE (R155). -/
def forceReleaseRule (channel : Byte) (s : State) : State × Reply :=
  match chanOf? channel.toNat with
  | none => (s, .plain .badArgument)
  | some c =>
    match s.holder c with
    | some k => ((s.releaseChan k c).enterCoolDown k c, .plain .ok)
    | none => (s, .plain .ok)

/-- Start FORCE RELEASE (R155). -/
def startForceRelease (stn : Station) (channel : Byte) (s : State) : State :=
  startCommand stn .forceRelease true (forceReleaseRule channel) s

/-! ### Program and preview -/

/-- The channel and holder checks of CUT and PREVIEW (R157). -/
def onRoute (stn : Station) (channel : Byte) (rule : Chan → State → State × Reply) (s : State) : State × Reply :=
  match chanOf? channel.toNat with
  | none => (s, .plain .badArgument)
  | some c => if stn = 0 || s.holder c = some stn then rule c s else (s, .plain .notClaimed)

/-- CUT (R157). -/
def cutRule (c : Chan) (s : State) : State × Reply :=
  if s.arbiter.pgm = c then (s, .plain .ok)
  else
    let pvw := if s.arbiter.pvw = c then (allChans.find? (· != c)).getD 0 else s.arbiter.pvw
    ({ s with arbiter := { s.arbiter with pgm := c, pvw := pvw } }, .plain .ok)

/-- PREVIEW (R157). -/
def previewRule (c : Chan) (s : State) : State × Reply :=
  if s.arbiter.pvw = c then (s, .plain .ok)
  else if s.arbiter.pgm = c then (s, .plain .wrongState)
  else ({ s with arbiter := { s.arbiter with pvw := c } }, .plain .ok)

/-- Whether a station may TAKE: station 0, or the holder of the channel on PVW (R158). -/
def State.mayTake (s : State) (stn : Station) : Bool := stn = 0 || s.holder s.arbiter.pvw = some stn

/-- PGM and PVW change places (R158). -/
def State.swapRoutes (s : State) : State :=
  { s with arbiter := { s.arbiter with pgm := s.arbiter.pvw, pvw := s.arbiter.pgm } }

/-- Start CUT (R157). -/
def startCut (stn : Station) (channel : Byte) (s : State) : State :=
  startCommand stn .cut true (onRoute stn channel cutRule) s

/-- Start PREVIEW (R157). -/
def startPreview (stn : Station) (channel : Byte) (s : State) : State :=
  startCommand stn .preview true (onRoute stn channel previewRule) s

/-- Start TAKE (R158). -/
def startTake (stn : Station) (s : State) : State :=
  startCommand stn .take true (fun s =>
    if s.mayTake stn then (s.swapRoutes, .plain .ok) else (s, .plain .notClaimed)) s

/-! ### The commands -/

/-- SELECT. -/
def execSelect (stn : Station) (channel : Byte) (s : State) : Host.Outcome State Fault Refusal :=
  act (startSelect stn channel) s

/-- CLAIM. -/
def execClaim (stn : Station) (channel : Byte) (s : State) : Host.Outcome State Fault Refusal :=
  act (startClaim stn channel) s

/-- CANCEL. -/
def execCancel (stn : Station) (s : State) : Host.Outcome State Fault Refusal := act (startCancel stn) s

/-- RELEASE. -/
def execRelease (stn : Station) (channel : Byte) (s : State) : Host.Outcome State Fault Refusal :=
  act (startRelease stn channel) s

/-- FORCE_RELEASE. -/
def execForceRelease (stn : Station) (channel : Byte) (s : State) : Host.Outcome State Fault Refusal :=
  act (startForceRelease stn channel) s

/-- CUT. -/
def execCut (stn : Station) (channel : Byte) (s : State) : Host.Outcome State Fault Refusal :=
  act (startCut stn channel) s

/-- PREVIEW. -/
def execPreview (stn : Station) (channel : Byte) (s : State) : Host.Outcome State Fault Refusal :=
  act (startPreview stn channel) s

/-- TAKE. -/
def execTake (stn : Station) (s : State) : Host.Outcome State Fault Refusal := act (startTake stn) s

/-- COOL_DOWN_END (R149): the unclaimed run of a cool-down whose channel has no holder reaches 2, and the cool-down ends.
It is the last raise that the arbiter makes at a house frame (notes/assumptions/3.md). -/
def execCoolDownEnd (stn : Station) (c : Chan) (s : State) : Host.Outcome State Fault Refusal :=
  act (fun s => s.endCoolDown stn c) s

/-- CLAIM_TIMEOUT (R151): the age of a pending claim reaches 50. It is the last raise that the arbiter makes at a house
frame (notes/assumptions/3.md). -/
def execClaimTimeout (stn : Station) (s : State) : Host.Outcome State Fault Refusal :=
  act (fun s => s.timeOutClaim stn) s

end Sys2Proof.Machine
end

