-- ==== Sys2Proof/Machine/Formats.lean ====
section
/-! DEFINITION. Machine/Formats.lean: the byte layouts of chapter 11: the CRC and the link frames (R185), the desk frame
payload judged on reception (R162) and encoded, the report frame payload (R171, R186), and the outgoing port words. -/

namespace Sys2Proof.Machine

/-! ### CRC (R185) -/

/-- One bit of the CRC with polynomial x^16 + x^12 + x^5 + 1, most significant bit first. -/
def crcBit (crc : BitVec 16) (b : Bool) : BitVec 16 :=
  if (crc.getMsbD 0) != b then (crc <<< 1) ^^^ 0x1021#16 else crc <<< 1

/-- The CRC of a list of bytes, from 65,535, not inverted (R185). -/
def crc16 (bytes : List Byte) : BitVec 16 := (bytes.flatMap bitsOf).foldl crcBit 0xFFFF#16

/-- The start byte of a link frame. -/
def startByte : Byte := 165

/-- A link frame: start byte, length, station number, payload, and the CRC over all but the start byte (R185). -/
def linkFrame (k : Station) (payload : List Byte) : List Byte :=
  let body := BitVec.ofNat 8 (payload.length + 1) :: BitVec.ofNat 8 k.val :: payload
  startByte :: (body ++ bytes16 (crc16 body))

/-! ### Desk frames -/

/-- The payload of a desk frame, as carried (11.1). -/
structure DeskFrame where
  lever : Byte
  jog : Byte
  /-- Bits 0 to 7: MARK IN, MARK OUT, PLAY, PAUSE, LIVE, TAKE, CUE NEXT, ANGLE NEXT. -/
  keys : Byte
  listingHold : Bool
  toggle : Bool
  /-- The command message, kind code first. -/
  command : Option (List Byte)
  deriving DecidableEq, Repr

/-- The control byte of a desk frame (11.1). -/
def DeskFrame.control (f : DeskFrame) : Byte :=
  BitVec.ofNat 8 (f.listingHold.toNat + 2 * f.toggle.toNat + 4 * f.command.isSome.toNat)

/-- The payload bytes of a desk frame (11.1). -/
def DeskFrame.payload (f : DeskFrame) : List Byte :=
  [f.lever, f.jog, f.keys, f.control] ++
    match f.command with
    | some message => BitVec.ofNat 8 message.length :: message
    | none => []

/-- The bytes a station sends for a desk frame (R185). -/
def DeskFrame.bytes (k : Station) (f : DeskFrame) : List Byte := linkFrame k f.payload

/-- The lever reading of a desk frame, clamped to −100 to +100 (R162). -/
def DeskFrame.leverReading (f : DeskFrame) : Int := max (-100) (min 100 f.lever.toInt)

/-- The jog of a desk frame, clamped to −64 to +63 (R162). -/
def DeskFrame.jogCount (f : DeskFrame) : Int := max (-64) (min 63 f.jog.toInt)

/-- The payload of a desk frame read from the bytes after the station number; none is a format fault: a command size
outside 1 to 28, or a command that does not end within the length (R185). Bytes beyond the command are ignored. -/
def DeskFrame.ofPayload : List Byte → Option DeskFrame
  | lever :: jog :: keys :: control :: rest =>
    let frame := fun (command : Option (List Byte)) =>
      { lever := lever, jog := jog, keys := keys, listingHold := control.getLsbD 0, toggle := control.getLsbD 1,
        command := command : DeskFrame }
    if control.getLsbD 2 then
      match rest with
      | size :: message =>
        if 1 ≤ size.toNat ∧ size.toNat ≤ 28 ∧ size.toNat ≤ message.length then
          some (frame (some (message.take size.toNat)))
        else none
      | [] => none
    else some (frame none)
  | _ => none

/-! ### Reception (R162, R185) -/

/-- Why a frame is rejected (R162). -/
inductive FrameFault where
  | format
  | crc
  | station
  deriving DecidableEq, Repr

/-- The judgement of the bytes from a start byte on: not yet whole, rejected, or accepted with the bytes after it. -/
inductive Judgement where
  | incomplete
  | rejected (fault : FrameFault)
  | accepted (frame : DeskFrame) (rest : List RxByte)
  deriving DecidableEq, Repr

/-- Judge a whole frame: `body` runs from the length to the last payload byte, `check` is the received CRC (R162, R185). -/
def judgeWhole (k : Station) (body : List Byte) (check : List Byte) (rest : List RxByte) : Judgement :=
  match DeskFrame.ofPayload (body.drop 2) with
  | none => .rejected .format
  | some f =>
    if check ≠ bytes16 (crc16 body) then .rejected .crc
    else if body[1]? ≠ some (BitVec.ofNat 8 k.val) then .rejected .station
    else .accepted f rest

/-- Judge the bytes after a start byte (R162, R185): a length outside 5 to 40 or a framing error is a format fault as soon
as it is seen; a whole frame is judged for its command size, its CRC and its station number. -/
def judgeFrame (k : Station) (after : List RxByte) : Judgement :=
  match after with
  | [] => .incomplete
  | len :: _ =>
    let size := len.value.toNat + 3
    if (after.take size).any (·.framingError) then .rejected .format
    else if len.value.toNat < 5 ∨ 40 < len.value.toNat then .rejected .format
    else if after.length < size then .incomplete
    else
      let bytes := (after.take size).map (·.value)
      judgeWhole k (bytes.take (size - 2)) (bytes.drop (size - 2)) (after.drop size)

/-- A byte that begins a frame: the start byte, received without a framing error (R162, notes/assumptions/16.md). -/
def beginsFrame (b : RxByte) : Bool := b.value = startByte && !b.framingError

/-- The bytes from the next start byte on (R162). -/
def fromStart (bytes : List RxByte) : List RxByte := bytes.dropWhile fun b => !beginsFrame b

/-! ### Codes (11.1, 11.2) -/

/-- The result code of a result (11.2). -/
def Result.code : Result → Nat
  | .ok => 0
  | .busy => 1
  | .notAllowed => 2
  | .notClaimed => 3
  | .claimed => 4
  | .notOwner => 5
  | .noClip => 6
  | .clipBusy => 7
  | .wrongState => 8
  | .tableFull => 9
  | .noMaterial => 10
  | .held => 11
  | .badArgument => 12
  | .unknownCommand => 13
  | .timeout => 14
  | .cancelled => 15
  | .nothingPending => 16
  | .queueFull => 17
  | .listFull => 18

/-- The code of a command state (11.1). -/
def CommandState.code : CommandState → Nat
  | .idle => 0
  | .inProgress => 1
  | .done => 2

/-- The code of a link state (11.2). -/
def LinkState.code : LinkState → Nat
  | .off => 0
  | .down => 1
  | .up => 2
  | .lost => 3

/-- The code of a record state (11.2). -/
def RecState.code : RecState → Nat
  | .stopped => 0
  | .recording => 1
  | .halted => 2

/-- The code of a clip state (11.1). -/
def ClipState.code : ClipState → Nat
  | .opened => 0
  | .closing => 1
  | .closed => 2
  | .retiring => 3
  | .deleting => 4

/-- The code of a channel state; IDLE is 0 (11.1). -/
def Mode.code : Mode → Nat
  | .live => 1
  | .paused => 2
  | .shuttle => 3
  | .play => 4
  | .clip _ => 5
  | .follow => 6

/-- The code of a gang role (11.1). -/
def GangRole.code : GangRole → Nat
  | .none => 0
  | .leader _ => 1
  | .follower _ => 2

/-- The code of a refusal kind (11.4). -/
def RefusalKind.code : RefusalKind → Nat
  | .format => 1
  | .notRecording => 2
  | .stale => 3
  | .overrun => 4
  | .starved => 5

/-! ### Report frames (11.1) -/

/-- A byte of numbered bits, bit 0 first. -/
def bitByte (bits : List Bool) : Byte :=
  BitVec.ofNat 8 (bits.foldr (fun b n => b.toNat + 2 * n) 0)

/-- The byte of a channel, or a value for its absence. -/
def optChanByte (absent : Byte) : Option Chan → Byte
  | some c => chanByte c
  | none => absent

/-- A channel summary: 13 bytes (11.1). -/
def ChannelSummary.bytes (m : ChannelSummary) : List Byte :=
  let flags := fun (clamp running ended : Bool) =>
    BitVec.ofNat 8 (clamp.toNat + 2 * m.black.toNat + 4 * m.frameValid.toNat + 8 * running.toNat + 16 * ended.toNat +
      32 * m.staged.toNat + 64 * m.gang.code)
  match m.head with
  | none =>
    [BitVec.ofNat 8 (m.channel.val + 1), BitVec.ofNat 8 (16 * m.cueCount), flags false false false] ++
      beBytes 4 0 ++ beBytes 2 0 ++ beBytes 2 0 ++ beBytes 2 0
  | some h =>
    let clip := match h.mode with
      | .clip ctx => (ctx.clipId, ctx.running, ctx.endReached)
      | _ => (0, false, false)
    [BitVec.ofNat 8 (m.channel.val + 1 + 8 * h.mode.code), BitVec.ofNat 8 (h.angle.val + 1 + 16 * m.cueCount),
      flags h.clamp clip.2.1 clip.2.2] ++
      beBytes 4 (h.position / 720) ++ beBytes 2 (h.position % 720) ++ signedBytes h.speed ++ beBytes 2 clip.1

/-- A listing record: 48 bytes (11.1). Bits that no table names are sent as 0 (DESIGN CHOICE, notes/assumptions/47.md). -/
def Clip.bytes (c : Clip) : List Byte :=
  beBytes 2 c.id ++ beBytes 2 c.serial ++
    [BitVec.ofNat 8 c.state.code, BitVec.ofNat 8 c.owner.val, BitVec.ofNat 8 (bitsOfAngles c.angles),
      bitByte [c.isProtected, c.trimmed, c.outMark.isSome], angleByte c.hero, BitVec.ofNat 8 c.useCount] ++
    beBytes 4 c.inMark ++ beBytes 4 (c.outMark.getD 0) ++
    BitVec.ofNat 8 c.tags.length :: (List.range 4).map (fun i => c.tags.getD i 0) ++
    BitVec.ofNat 8 c.label.length :: (List.range 24).map (fun i => (c.label.getD i 0).setWidth 8)

/-- The code of what a report carries of a listing (11.1). -/
def ListingItem.code : ListingItem → Nat
  | .none => 0
  | .record _ => 1
  | .endMarker => 2

/-- The byte of an angle alert, bit n − 1 for angle n (11.1). -/
def angleAlertByte (timers : Vector Nat 8) : Byte := bitByte (timers.toList.map fun t => decide (0 < t))

/-- The payload of a report frame (11.1). The kind and result bytes of an empty ack area are free
(notes/assumptions/9.md). Bits that no table names are sent as 0 (DESIGN CHOICE, notes/assumptions/47.md). -/
def Report.payload (r : Report) : List Byte :=
  beBytes 2 r.houseLow ++
    [BitVec.ofNat 8 ((if r.ref = .locked then 1 else 0) + 4 * r.summaries.length + 32 * r.listing.code +
        128 * r.withheld.toNat),
      chanByte r.pgm, chanByte r.pvw] ++
    (r.holders.toList.map fun h => match h with
      | some k => BitVec.ofNat 8 k.val
      | none => 255) ++
    [optChanByte 0 r.selected] ++ beBytes 2 (r.openClip.getD 0) ++ beBytes 2 r.generation ++
    [BitVec.ofNat 8 (r.ackToggle.toNat + 2 * r.ack.state.code),
      (match r.ack.kind with
        | some k => BitVec.ofNat 8 k
        | none => Config.unstatedByte .ackKind r.draw),
      (match r.ack.result with
        | some c => BitVec.ofNat 8 c.code
        | none => Config.unstatedByte .ackResult r.draw),
      BitVec.ofNat 8 r.ack.data.length,
      angleAlertByte r.alerts.starved, angleAlertByte r.alerts.missing, angleAlertByte r.alerts.writeFault,
      angleAlertByte r.alerts.absent,
      bitByte ((r.alerts.readFault.toList ++ r.alerts.fitLimited.toList).map fun t => decide (0 < t)),
      bitByte ((r.alerts.cueSkipped.toList.map fun t => decide (0 < t)) ++
        [decide (0 < r.alerts.keyIgnored), decide (r.ref = .free)])] ++
    (if r.withheld then [] else r.ack.data) ++ r.summaries.flatMap ChannelSummary.bytes ++
    match r.listing with
    | .record c => c.bytes
    | _ => []

/-- The bytes of a report frame as sent (R185). -/
def Report.bytes (r : Report) : List Byte := linkFrame r.station r.payload

/-! ### Outgoing port words (11.4) -/

/-- The word of a write grant or a refusal. -/
def IngestAnswer.word : IngestAnswer → BitVec 64
  | .grant angle phase stamp slot low =>
    1#2 ++ angle ++ phase ++ stamp ++ BitVec.ofNat 20 slot ++ BitVec.ofNat 16 low ++ 0#3
  | .refusal angle phase stamp kind low =>
    2#2 ++ angle ++ phase ++ stamp ++ BitVec.ofNat 3 kind.code ++ BitVec.ofNat 16 low ++ 0#20

/-- The word of a fetch request; slot fields that carry no slot are 0. -/
def FetchRequest.word (r : FetchRequest) : BitVec 64 :=
  BitVec.ofNat 3 (r.channel.val + 1) ++ BitVec.ofNat 8 r.tag ++ BitVec.ofBool r.black ++
    BitVec.ofBool r.slotB.isSome ++ BitVec.ofNat 4 r.weight ++ BitVec.ofNat 20 (r.slotA.getD 0) ++
    BitVec.ofNat 20 (r.slotB.getD 0) ++ 0#7

end Sys2Proof.Machine
end

