-- ==== Sys2Proof/Machine/Reports.lean ====
section
/-! DEFINITION. Machine/Reports.lean: the report frames of a link (R171, R186), its listing (R173), the lowering of its
alert timers (R172), and the end of a transmission. -/

namespace Sys2Proof.Machine

/-! ### Listings -/

/-- Whether a clip matches the filter of a station's listing (R173). -/
def matchesFilter (f : Filter) (stn : Station) (c : Clip) : Bool :=
  match f with
  | .all => true
  | .own => c.owner = stn
  | .tag t => c.tags.contains t

/-- What a report built now carries of a link's listing, and the listing after it (R173). -/
def State.listingStep (s : State) (k : Station) : ListingItem × Listing :=
  match (s.link k).listing with
  | .stopped => (.none, .stopped)
  | .running filter cursor =>
    if (s.link k).listingHold then (.none, .running filter cursor)
    else
      match s.clips.clips.find? fun c => decide (cursor ≤ c.id) && matchesFilter filter k c with
      | some c => (.record c, .running filter (c.id + 1))
      | none => (.endMarker, .stopped)

/-- LIST: a tag of 0 is refused; otherwise the listing starts, or starts again, at cursor 1 (R173). -/
def listRule (stn : Station) (filter : Filter) (s : State) : State × Reply :=
  if filter = .tag 0 then (s, .plain .badArgument)
  else (s.modLink stn fun l => { l with listing := .running filter 1 }, .plain .ok)

/-- Start LIST (R173). -/
def startList (stn : Station) (filter : Filter) (s : State) : State :=
  startCommand stn .list true (listRule stn filter) s

/-! ### Reports -/

/-- The summary of a channel (R171). -/
def State.summary (s : State) (c : Chan) : ChannelSummary :=
  let ch := s.chan c
  { channel := c, head := ch.head, cueCount := ch.cues.length, staged := ch.staged, black := ch.black,
    frameValid := ch.frameValid, gang := ch.gang }

/-- The channels summarised in a station's report: those it holds, and for station 0 the unclaimed ones too (R159). -/
def State.reported (s : State) (k : Station) : List Chan :=
  allChans.filter fun c => s.holder c = some k || (k = 0 && (s.holder c).isNone)

/-- The result data is withheld when the full report would exceed 148 bytes (R186). -/
def withholds (data summaries : Nat) (item : ListingItem) : Bool :=
  148 < 29 + data + 13 * summaries + (match item with
    | .record _ => 48
    | _ => 0)

/-- The report of a link as things stand (R171). -/
def State.buildReport (s : State) (k : Station) (item : ListingItem) : Report :=
  let l := s.link k
  let chans := s.reported k
  { station := k, houseLow := s.houseLow, ref := s.timeBase.ref, pgm := s.arbiter.pgm, pvw := s.arbiter.pvw,
    holders := s.arbiter.holders, selected := l.selected, openClip := (s.openClip k).map (·.id),
    generation := s.clips.generation, ackToggle := l.toggleSeen, ack := l.ack,
    withheld := withholds l.ack.data.length chans.length item, alerts := l.alerts,
    summaries := chans.map s.summary, listing := item, draw := s.draws }

/-- A link's report work at a house frame: no report in OFF; a report skip while the previous one is in transmission;
otherwise a report is built and sent (R171). -/
def State.sendReport (s : State) (k : Station) : State :=
  let l := s.link k
  if l.state = .off then s
  else if l.tx.isSome then s.modLinkCounts k fun n => { n with reportSkips := satInc n.reportSkips }
  else
    let item := s.listingStep k
    (s.modLink k fun l =>
      { l with tx := some { report := s.buildReport k item.1, divisor := l.divisor }, listing := item.2,
               counts := { l.counts with reportsSent := satInc l.counts.reportsSent } }).nextDraw

/-- A link's report and then the lowering of its alert timers, at every house frame (R171, R172). -/
def State.reportWork (s : State) (k : Station) : State :=
  (s.sendReport k).modLink k fun l => { l with alerts := l.alerts.lower }

/-- LIST. -/
def execList (stn : Station) (filter : Filter) (s : State) : Host.Outcome State Fault Refusal :=
  act (startList stn filter) s

/-- REPORT_TRANSMISSION_END (R171): the last byte of the report in transmission has left the link. -/
def execReportTransmissionEnd (k : Station) (s : State) : Host.Outcome State Fault Refusal :=
  act (fun s => s.modLink k fun l => { l with tx := none }) s

/-- ALERT_TIMER_EXPIRY (R172): the timer of a held alert is lowered from 1 to 0 and the alert is no longer shown. It is the
last lowering that the link makes at a house frame (notes/assumptions/3.md). -/
def execAlertTimerExpiry (k : Station) (alert : Alert) (s : State) : Host.Outcome State Fault Refusal :=
  act (fun s =>
    if (s.link k).alerts.get alert = 1 then s.modLink k fun l => { l with alerts := l.alerts.set alert 0 } else s) s

end Sys2Proof.Machine
end

