-- ==== Sys2Proof/Machine/Recorder.lean ====
section
/-! DEFINITION. Machine/Recorder.lean: the judgement of arrival notices and their grants and refusals (R18 to R25), write
completions (R26 to R28), presence (R30, R31), and REC START, REC STOP and ANGLE SET (R14 to R17, R176, R177). -/

namespace Sys2Proof.Machine

/-! ### Arrival notices -/

/-- The full house frame of a stamp: the greatest number not above the house count whose low 16 bits equal it (R19). -/
def resolveStamp (houseCount stamp : Nat) : Option Nat :=
  let h := houseCount % 65536
  if stamp ≤ h then some (houseCount - h + stamp)
  else if 65536 ≤ houseCount then some (houseCount - h - 65536 + stamp)
  else none

/-- The frame number of a notice that passes checks 1 to 5, or the kind of the first check that fails (R18 to R21). -/
def State.judgeNotice (s : State) (a : Angle) (stamp phase : Nat) : Except RefusalKind Nat :=
  let r := s.recorder a
  if r.rateMultiple ≤ phase then .error .format
  else
    match resolveStamp s.timeBase.houseCount stamp with
    | none => .error .format
    | some t =>
      if r.state ≠ .recording then .error .notRecording
      else
        let n := t * r.rateMultiple + phase
        if r.newest.any (n ≤ ·) then .error .stale
        else if 2 ≤ r.pendingWrites.length then .error .overrun
        else .ok n

/-- The FILLING page of an angle, if it has one. -/
def State.fillingPage (s : State) (a : Angle) : Option Page := (s.pageList a).find? fun p => p.state = .filling

/-- The page for frame `n`: the FILLING page when the frame continues it, else a supplied page (R22, R23). -/
def State.findPage (s : State) (a : Angle) (n : Nat) : State × Option Nat :=
  match s.fillingPage a with
  | some p =>
    if (s.recorder a).expected = some n && p.count < 64 then (s, some p.number) else s.supplyPage a n
  | none => s.supplyPage a n

/-- The slot address a grant into a page takes: its next slot index (R22, R36). -/
def State.nextSlot (s : State) (a : Angle) (page : Nat) : Nat :=
  page * 64 + (((s.pageList a).find? fun p => p.number = page).map (·.count)).getD 0

/-- The frames counted as missing at a grant of frame `n` (R24). -/
def missingAt (expected : Option Nat) (n : Nat) : Nat :=
  match expected with
  | some e => n - e
  | none => 0

/-- A grant of frame `n` in a page (R24): missing frames, the slot, the pending write, the write hold, the numbers and the
counts. -/
def State.grantFrame (s : State) (a : Angle) (n page : Nat) : State :=
  let missing := missingAt (s.recorder a).expected n
  let write : PendingWrite := { slot := s.nextSlot a page, page := page, frame := n }
  let t := s.modPage page fun p => { p with count := p.count + 1, writeHolds := p.writeHolds + 1 }
  let t := t.modRecorder a fun r =>
    { r with
        pendingWrites := r.pendingWrites ++ [write]
        newest := some n
        expected := some (n + 1)
        counts := { r.counts with grants := satInc r.counts.grants, missing := satAdd r.counts.missing missing } }
  if missing = 0 then t else t.raiseAngleAlert (.missing a)

/-- The refusal count of a kind rises by 1 (R25). -/
def RecCounts.refuse (n : RecCounts) : RefusalKind → RecCounts
  | .format => { n with formatRefusals := satInc n.formatRefusals }
  | .notRecording => { n with notRecordingRefusals := satInc n.notRecordingRefusals }
  | .stale => { n with staleRefusals := satInc n.staleRefusals }
  | .overrun => { n with overrunRefusals := satInc n.overrunRefusals }
  | .starved => { n with starvedRefusals := satInc n.starvedRefusals }

/-- An answer joins those waiting at the ingest port (R18). -/
def State.answerIngest (s : State) (answer : IngestAnswer) : State := { s with ingestOut := s.ingestOut ++ [answer] }

/-- A refusal of a notice for an angle (R25). -/
def State.refuseNotice (s : State) (a : Angle) (angle : BitVec 4) (stamp : BitVec 16) (phase : BitVec 3)
    (kind : RefusalKind) : State :=
  let t := s.modRecCounts a fun n => n.refuse kind
  let t := if kind = .starved then t.raiseAngleAlert (.starved a) else t
  t.answerIngest (.refusal angle phase stamp kind s.houseLow)

/-- A notice for an angle 1 to 8 (R18): it sets the presence (R30), and is granted (R24) or refused (R25). -/
def State.takeNotice (s : State) (a : Angle) (angle : BitVec 4) (stamp : BitVec 16) (phase : BitVec 3) : State :=
  let t := s.modRecorder a fun r => { r with present := true, silence := 0 }
  match t.judgeNotice a stamp.toNat phase.toNat with
  | .error kind => t.refuseNotice a angle stamp phase kind
  | .ok n =>
    match t.findPage a n with
    | (t, none) => t.refuseNotice a angle stamp phase .starved
    | (t, some page) =>
      (t.grantFrame a n page).answerIngest (.grant angle phase stamp (t.nextSlot a page) s.houseLow)

/-- A notice or completion whose angle lies outside 1 to 8 is counted (R18, R28). -/
def State.countUnknownAngle (s : State) : State := { s with unknownAngles := satInc s.unknownAngles }

/-- ARRIVAL_NOTICE (R18). -/
def execArrivalNotice (angle : BitVec 4) (stamp : BitVec 16) (phase : BitVec 3) (s : State) :
    Host.Outcome State Fault Refusal :=
  act (fun s =>
    match angleOf? angle.toNat with
    | some a => s.takeNotice a angle stamp phase
    | none => s.countUnknownAngle.answerIngest (.refusal angle phase stamp .format s.houseLow)) s

/-! ### Write completions -/

/-- A completion that names the head entry `w` of an angle's pending-write list (R26, R27). -/
def State.completeWrite (s : State) (a : Angle) (w : PendingWrite) (ok : Bool) : State :=
  let t := s.modPage w.page fun p =>
    { p with writeHolds := p.writeHolds - 1, faulted := if ok then p.faulted else insertIndex (w.slot % 64) p.faulted }
  let t := t.modRecorder a fun r =>
    { r with
        pendingWrites := r.pendingWrites.tail
        liveEdge := some w.frame
        counts := { r.counts with
          completions := satInc r.counts.completions
          writeFaults := if ok then r.counts.writeFaults else satInc r.counts.writeFaults } }
  if ok then t else t.raiseAngleAlert (.writeFault a)

/-- A write completion for an angle 1 to 8: taken when it names the head entry, else a port fault (R26, R28). -/
def State.takeCompletion (s : State) (a : Angle) (slot : Nat) (ok : Bool) : State :=
  match (s.recorder a).pendingWrites.head? with
  | some w =>
    if w.slot = slot then s.completeWrite a w ok
    else s.modRecCounts a fun n => { n with portFaults := satInc n.portFaults }
  | none => s.modRecCounts a fun n => { n with portFaults := satInc n.portFaults }

/-- WRITE_COMPLETION (R26 to R28); a status other than 0 is FAULT (R27, 11.4). -/
def execWriteCompletion (angle : BitVec 4) (slot : BitVec 20) (status : BitVec 2) (s : State) :
    Host.Outcome State Fault Refusal :=
  act (fun s =>
    match angleOf? angle.toNat with
    | some a => s.takeCompletion a slot.toNat (status == 0)
    | none => s.countUnknownAngle) s

/-! ### Presence and halt -/

/-- The number of house frame events without a notice after which an angle is ABSENT (R30). -/
def silenceLimit : Nat := 3

/-- A PRESENT angle becomes ABSENT at the raise of its silence count to 3 (R30, R31). -/
def State.loseAngle (s : State) (a : Angle) : State :=
  let r := s.recorder a
  if r.present && silenceLimit ≤ r.silence + 1 then
    (s.modRecorder a fun r =>
      { r with present := false, silence := silenceLimit,
               counts := { r.counts with absences := satInc r.counts.absences } }).raiseAngleAlert (.absent a)
  else s

/-- The raise of an angle's silence count at a house frame (R30). -/
def State.raiseSilence (s : State) (a : Angle) : State :=
  let r := s.recorder a
  if r.present && silenceLimit ≤ r.silence + 1 then s.loseAngle a
  else s.modRecorder a fun r => { r with silence := min silenceLimit (r.silence + 1) }

/-- A RECORDING angle becomes HALTED, and its FILLING page SEALED (R16). -/
def State.haltAngle (s : State) (a : Angle) : State :=
  if (s.recorder a).state = .recording then (s.modRecorder a fun r => { r with state := .halted }).sealAngle a else s

/-- The recorder's reaction to a house frame event: the halt on the saturated indication (R16) and the silence counts
(R30). -/
def State.recorderWork (s : State) : State :=
  let t := if satMax ≤ s.timeBase.houseCount then allAngles.foldl (fun t a => t.haltAngle a) s else s
  allAngles.foldl (fun t a => t.raiseSilence a) t

/-- ANGLE_ABSENT (R31): the silence count of a PRESENT angle reaches 3. It is the last raise that the recorder makes at a
house frame (notes/assumptions/3.md). -/
def execAngleAbsent (a : Angle) (s : State) : Host.Outcome State Fault Refusal := act (fun s => s.loseAngle a) s

/-! ### REC START, REC STOP, ANGLE SET -/

/-- The answer of REC START and REC STOP: the angle and its record state (R177). -/
def State.recReply (s : State) (a : Angle) (r : Result) : Reply :=
  { result := some r, data := [angleByte a, BitVec.ofNat 8 (s.recorder a).state.code] }

/-- REC START of an angle in range (R14). -/
def recStartRule (a : Angle) (s : State) : State × Reply :=
  match (s.recorder a).state with
  | .recording => (s, s.recReply a .ok)
  | .halted => (s, s.recReply a .wrongState)
  | .stopped =>
    if satMax ≤ s.timeBase.houseCount then (s, s.recReply a .wrongState)
    else
      let t := s.modRecorder a fun r => { r with state := .recording, expected := none }
      (t, t.recReply a .ok)

/-- REC STOP of an angle in range (R15). -/
def recStopRule (a : Angle) (s : State) : State × Reply :=
  match (s.recorder a).state with
  | .stopped => (s, s.recReply a .ok)
  | .halted => (s, s.recReply a .wrongState)
  | .recording =>
    let t := (s.modRecorder a fun r => { r with state := .stopped }).sealAngle a
    (t, t.recReply a .ok)

/-- A command that names an angle; a number outside 1 to 8 gives BAD_ARGUMENT (R177). -/
def onAngle (angle : Byte) (rule : Angle → State → State × Reply) (s : State) : State × Reply :=
  match angleOf? angle.toNat with
  | some a => rule a s
  | none => (s, .plain .badArgument)

/-- Whether a channel that is not IDLE has an angle (R17, check 2). -/
def State.angleInUse (s : State) (a : Angle) : Bool :=
  allChans.any fun c => (s.chan c).head.map (·.angle) = some a

/-- A quota clamped to 8 to 16,384 (R176). -/
def clampQuota (q : Nat) : Nat := max 8 (min 16384 q)

/-- ANGLE SET of an angle in range with a rate multiple in range (R17, R45). -/
def angleSetRule (m quota : Nat) (a : Angle) (s : State) : State × Reply :=
  if (s.recorder a).state ≠ .stopped then (s, .plain .wrongState)
  else if s.angleInUse a then (s, .plain .wrongState)
  else if (s.pageList a).any fun p => 0 < p.holdCount then (s, .plain .held)
  else
    ((s.emptyAngle a).modRecorder a fun r =>
        { r with rateMultiple := m, quota := quota, expected := none, newest := none, liveEdge := none,
                 pendingWrites := [] },
      .okWith (angleByte a :: BitVec.ofNat 8 m :: beBytes 2 quota))

/-- Start ANGLE SET (R17, R176). -/
def startAngleSet (stn : Station) (angle rateMultiple : Byte) (quota : BitVec 16) (s : State) : State :=
  startCommand stn .angleSet true (onAngle angle fun a s =>
    if rateMultiple.toNat < 1 ∨ 4 < rateMultiple.toNat then (s, .plain .badArgument)
    else angleSetRule rateMultiple.toNat (clampQuota quota.toNat) a s) s

/-- Start REC START (R14, R177). -/
def startRecStart (stn : Station) (angle : Byte) (s : State) : State :=
  startCommand stn .recStart true (onAngle angle recStartRule) s

/-- Start REC STOP (R15, R177). -/
def startRecStop (stn : Station) (angle : Byte) (s : State) : State :=
  startCommand stn .recStop true (onAngle angle recStopRule) s

/-- ANGLE_SET. -/
def execAngleSet (stn : Station) (angle rateMultiple : Byte) (quota : BitVec 16) (s : State) :
    Host.Outcome State Fault Refusal :=
  act (startAngleSet stn angle rateMultiple quota) s

/-- REC_START. -/
def execRecStart (stn : Station) (angle : Byte) (s : State) : Host.Outcome State Fault Refusal :=
  act (startRecStart stn angle) s

/-- REC_STOP. -/
def execRecStop (stn : Station) (angle : Byte) (s : State) : Host.Outcome State Fault Refusal :=
  act (startRecStop stn angle) s

end Sys2Proof.Machine
end

