-- ==== Sys2Proof/Machine/LinkWatch.lean ====
section
/-! DEFINITION. Machine/LinkWatch.lean: the session values of a link (R165), its loss and the pause of its channels (R111,
R163), its grace expiry (R156, R164), and LINK SET (R161, R180). -/

namespace Sys2Proof.Machine

/-- A link with the session values of R165. A frame in reception and a report in transmission, which R165 does not list, go on
(DEDUCED, notes/assumptions/45.md). -/
def Link.session (l : Link) : Link :=
  { l with lossCount := 0, graceCount := 0, lever := { oldest := 0, middle := 0, newest := 0 }, engaged := false,
           confirmRun := 0, armed := true, keys := Vector.replicate 8 .spent, selected := none, toggleSeen := false,
           toggleSynced := false, ack := .empty, listing := .stopped, alerts := .zero }

/-- A link enters DOWN or OFF (R165): its session values are set, and a channel in SHUTTLE that loses its lever target
becomes PAUSED (R94). -/
def State.enterSession (s : State) (k : Station) (state : LinkState) : State :=
  (s.modLink k fun l => { l.session with state := state }).settleLevers s

/-! ### Loss -/

/-- The pause of one channel at the loss of its station's link (R111). -/
def State.pauseMoving (s : State) (c : Chan) : State :=
  match (s.chan c).head with
  | none => s
  | some h =>
    match h.mode with
    | .play | .shuttle => s.steer c Playhead.pause
    | .clip ctx => if ctx.running then s.steer c fun h => h.stopRunning ctx else s
    | _ => s

/-- The channels a station holds that are no gang followers are paused (R111). -/
def State.pauseStation (s : State) (k : Station) : State :=
  allChans.foldl (fun t c => if t.holder c = some k && !t.isFollower c then t.pauseMoving c else t) s

/-- The loss count at which a link is LOST (R163). -/
def lossLimit : Nat := 8

/-- The grace count at which the grace expires (R164). -/
def graceLimit : Nat := 300

/-- An UP link enters LOST at the raise of its loss count to 8 (R111, R163). -/
def State.loseLink (s : State) (k : Station) : State :=
  let l := s.link k
  if l.state = .up && lossLimit ≤ l.lossCount + 1 then
    (s.modLink k fun l =>
      { l with state := .lost, lossCount := lossLimit, graceCount := 0,
               counts := { l.counts with lossEntries := satInc l.counts.lossEntries } }).pauseStation k
  else s

/-- The grace of a LOST link expires at the raise of its grace count to 300 (R164): claims are released and the pending
claim ended (R156), the OPEN clip is marked out (R82), and the link enters DOWN. -/
def State.expireGrace (s : State) (k : Station) : State :=
  let l := s.link k
  if l.state = .lost && graceLimit ≤ l.graceCount + 1 then
    (((s.releaseStation k).graceMarkOut k).enterSession k .down).modLinkCounts k
      fun n => { n with graceExpiries := satInc n.graceExpiries }
  else s

/-- A link's watch at a house frame: the loss count rises in UP and the grace count in LOST (R163, R164). -/
def State.watchLink (s : State) (k : Station) : State :=
  let l := s.link k
  match l.state with
  | .up =>
    if lossLimit ≤ l.lossCount + 1 then s.loseLink k else s.modLink k fun l => { l with lossCount := l.lossCount + 1 }
  | .lost =>
    if graceLimit ≤ l.graceCount + 1 then s.expireGrace k
    else s.modLink k fun l => { l with graceCount := l.graceCount + 1 }
  | _ => s

/-- LINK_LOSS (R163): the loss count of an UP link reaches 8. It is the last raise that the link makes at a house frame
(notes/assumptions/3.md). -/
def execLinkLoss (k : Station) (s : State) : Host.Outcome State Fault Refusal := act (fun s => s.loseLink k) s

/-- GRACE_EXPIRY (R164): the grace count of a LOST link reaches 300. It is the last raise that the link makes at a house
frame (notes/assumptions/3.md). -/
def execGraceExpiry (k : Station) (s : State) : Host.Outcome State Fault Refusal :=
  act (fun s => s.inEvent fun s => s.expireGrace k) s

/-! ### LINK SET -/

/-- An enabled link is disabled: the station's claims are released and its pending claim ended (R156), the link enters OFF
with its session values, and a frame in reception and a report in transmission are abandoned (R161). -/
def State.disableLink (s : State) (k : Station) : State :=
  ((s.releaseStation k).enterSession k .off).modLink k fun l => { l with enabled := false, rx := [], tx := none }

/-- What LINK SET does to the enable of a link (R161). -/
def State.setEnable (s : State) (k : Station) (enable : Bool) : State :=
  match enable, (s.link k).enabled with
  | false, true => s.disableLink k
  | true, false => (s.enterSession k .down).modLink k fun l => { l with enabled := true }
  | _, _ => s

/-- The divisor of a link takes a value; it applies to reception from the next start byte (R161). -/
def Link.setDivisor (l : Link) (d : Nat) : Link :=
  { l with divisor := d, rxDivisor := if l.rx.isEmpty then d else l.rxDivisor }

/-- LINK SET (R161, R180). -/
def linkSetRule (k enable divisor : Byte) (s : State) : State × Reply :=
  match stationOf? k.toNat with
  | none => (s, .plain .badArgument)
  | some j =>
    if divisor.toNat < 1 ∨ 16 < divisor.toNat then (s, .plain .badArgument)
    else if j = 0 ∧ enable = 0 then (s, .plain .badArgument)
    else
      let t := (s.setEnable j (enable != 0)).modLink j fun l => l.setDivisor divisor.toNat
      (t, .okWith [k, boolByte (t.link j).enabled, divisor, BitVec.ofNat 8 (t.link j).state.code])

/-- Start LINK SET (R161, R180). -/
def startLinkSet (stn : Station) (k enable divisor : Byte) (s : State) : State :=
  startCommand stn .linkSet true (linkSetRule k enable divisor) s

/-- LINK_SET. -/
def execLinkSet (stn : Station) (k enable divisor : Byte) (s : State) : Host.Outcome State Fault Refusal :=
  act (startLinkSet stn k enable divisor) s

end Sys2Proof.Machine
end

