-- ==== Sys2Proof/Machine/HouseFrame.lean ====
section
/-! DEFINITION. Machine/HouseFrame.lean: the house frame event (R1, R2) with the reactions of the blocks, the advance of the
channels (R95, R96) and their requests (R131), and the commands of the time base (R3 to R8, R178). -/

namespace Sys2Proof.Machine

/-! ### The advance -/

/-- The advance of a channel in SHUTTLE or PLAY (R96). -/
def State.moveHead (s : State) (c : Chan) (h : Playhead) : State :=
  let wanted : Int := (h.position : Int) + h.speed
  let moved := clampTo (s.span h.angle) wanted
  let h' := { h with position := moved.1, clamp := moved.2 }
  if moved.2 then
    if (moved.1 : Int) < wanted then
      if 720 ≤ h.speed ∧ (s.recorder h.angle).state = .recording then s.place c { h' with mode := .live, speed := 720 }
      else s.place c h'
    else if h.mode = .play then s.place c { h' with mode := .paused, speed := 0 }
    else s.place c h'
  else s.place c h'

/-- The advance of a channel that is not IDLE and no gang follower, with the move of its followers (R95, R96, R116). -/
def State.advance (s : State) (c : Chan) : State :=
  match (s.chan c).head with
  | none => s
  | some h =>
    match h.mode with
    | .live => s.place c { h with position := s.liveEnd h.angle h.position, speed := 720, clamp := false }
    | .shuttle | .play => s.moveHead c h
    | .clip ctx =>
      if ctx.running then
        match s.findClip ctx.clipId ctx.serial with
        | some clip => s.clipAdvance c h ctx clip
        | none => s
      else s
    | .paused | .follow => s

/-! ### Reactions to a house frame event -/

/-- Every reaction, in the order the model uses where a command names none (notes/assumptions/1.md). -/
def allReactions : List Reaction :=
  [.recorder, .channel 0, .channel 1, .channel 2, .channel 3, .arbiter,
   .linkWatch 0, .linkWatch 1, .linkWatch 2, .linkWatch 3, .linkWatch 4,
   .linkReport 0, .linkReport 1, .linkReport 2, .linkReport 3, .linkReport 4]

/-- The reactions in an order: those named, each once, and then the rest (R1, notes/assumptions/1.md). -/
def fullOrder (order : List Reaction) : List Reaction :=
  order.eraseDups ++ allReactions.filter fun r => !order.contains r

/-- A channel's house frame work: its own advance, and then the requests of itself and its followers, each member at most
once at this event (R95, R131). The leader's request comes first and its followers' follow by ascending channel (DESIGN
CHOICE, notes/assumptions/43.md). `served` lists the channels whose request has been dealt with at this event. -/
def channelWork (c : Chan) (w : State × List Chan) : State × List Chan :=
  let s := w.1
  if (s.chan c).head.isNone || s.isFollower c || w.2.contains c then w
  else
    let s := s.advance c
    let members := (c :: s.followersOf c).filter fun m => !w.2.contains m
    (members.foldl (fun t m => t.requestFor m) s, members ++ w.2)

/-- One reaction to a house frame event (R1). -/
def react (w : State × List Chan) (r : Reaction) : State × List Chan :=
  match r with
  | .recorder => (w.1.recorderWork, w.2)
  | .channel c => channelWork c w
  | .arbiter => (w.1.arbiterWork, w.2)
  | .linkWatch k => (w.1.watchLink k, w.2)
  | .linkReport k => (w.1.reportWork k, w.2)

/-- A house frame event: the house count is raised, saturating, and the blocks react in the order given (R1, R2). A channel
whose turn came while it was a follower of a gang that this event dissolved does its work last (R131,
notes/assumptions/24.md). -/
def State.houseFrame (s : State) (order : List Reaction) : State :=
  let s := { s with timeBase := { s.timeBase with houseCount := satInc s.timeBase.houseCount } }
  let w := (fullOrder order).foldl react (s, [])
  (allChans.foldl (fun w c => channelWork c w) w).1

/-! ### The time base -/

/-- The expected period in fifths of a link clock period: 491,520 periods at 50, 410,009.6 at 59.94 (R5). -/
def HouseRate.period : HouseRate → Nat
  | .fps50 => 2457600
  | .fps5994 => 2050048

/-- The timer's period at a place of its pattern, in fifths of a link clock period (R5). -/
def timerPeriod (rate : HouseRate) (place : Nat) : Nat :=
  match rate with
  | .fps50 => 5 * 491520
  | .fps5994 => if place = 1 ∨ place = 3 then 5 * 410009 else 5 * 410010

/-- A pulse interval is within ±2% of the expected period, both limits inside (section 1.2). At 59.94
the lower limit is the exact 16.34967 ms and not the printed 16.350 ms (DESIGN CHOICE, notes/assumptions/2.md). -/
def withinTolerance (rate : HouseRate) (interval : Nat) : Bool :=
  decide (98 * rate.period ≤ 100 * interval ∧ 100 * interval ≤ 102 * rate.period)

/-- Change the time base. -/
def State.modTime (s : State) (f : TimeBase → TimeBase) : State := { s with timeBase := f s.timeBase }

/-- A house frame event given at a moment, which becomes the last event time (R3 to R5, R7). -/
def State.giveEvent (s : State) (moment : Nat) (order : List Reaction) : State :=
  (s.modTime fun t => { t with lastEvent := moment }).houseFrame order

/-- The moment the internal timer's next event falls (R5). -/
def TimeBase.due (t : TimeBase) : Nat := t.lastEvent + timerPeriod t.rate t.timerPlace

/-- The timer gives its event at a moment, and its pattern moves on (R5). -/
def State.timerGives (s : State) (moment : Nat) (order : List Reaction) : State :=
  (s.modTime fun t => { t with timerPlace := (t.timerPlace + 1) % 5 }).giveEvent moment order

/-- A pulse interval of R6: from the last pulse time to the new pulse, when there is a last pulse time. -/
def TimeBase.qualifies (t : TimeBase) (moment : Nat) : Bool :=
  match t.lastPulse with
  | some p => withinTolerance t.rate (moment - p)
  | none => false

/-- The fourth consecutive qualifying pulse: LOCKED, with an event when at least half an expected period has passed since
the last event (R7). -/
def State.relock (s : State) (moment : Nat) (order : List Reaction) : State :=
  let late := decide (s.timeBase.rate.period ≤ 2 * (moment - s.timeBase.lastEvent))
  let t := s.modTime fun t =>
    { t with ref := .locked, qualifyingRun := 0, relockCount := satInc t.relockCount, lastPulse := some moment }
  if late then t.giveEvent moment order else t

/-- A reference pulse (R3, R6, R7). -/
def State.pulse (s : State) (moment : Nat) (order : List Reaction) : State :=
  match s.timeBase.ref with
  | .locked => (s.modTime fun t => { t with lastPulse := some moment }).giveEvent moment order
  | .free =>
    if s.timeBase.qualifies moment then
      if 3 ≤ s.timeBase.qualifyingRun then s.relock moment order
      else s.modTime fun t => { t with qualifyingRun := t.qualifyingRun + 1, lastPulse := some moment }
    else
      s.modTime fun t =>
        { t with qualifyingRun := 0, unqualifiedCount := satInc t.unqualifiedCount, lastPulse := some moment }

/-- The loss of the reference in LOCKED, two expected periods after the last pulse (R4). In FREE there is nothing to
lose. -/
def State.loseReference (s : State) (order : List Reaction) : State :=
  match s.timeBase.ref, s.timeBase.lastPulse with
  | .locked, some p =>
    (s.modTime fun t =>
      { t with ref := .free, qualifyingRun := 0, timerPlace := 0, lossCount := satInc t.lossCount }).giveEvent
      (p + 2 * s.timeBase.rate.period) order
  | _, _ => s

/-- REFERENCE_PULSE (R3, R6, R7). -/
def execReferencePulse (moment : Nat) (order : List Reaction) (s : State) : Host.Outcome State Fault Refusal :=
  act (fun s => s.inEvent fun s => s.pulse moment order) s

/-- TIMER_EVENT (R5): in FREE the internal timer gives a house frame event; in LOCKED it gives none. -/
def execTimerEvent (order : List Reaction) (s : State) : Host.Outcome State Fault Refusal :=
  act (fun s =>
    if s.timeBase.ref = .free then s.inEvent fun s => s.timerGives s.timeBase.due order else s) s

/-- REFERENCE_LOSS (R4). -/
def execReferenceLoss (order : List Reaction) (s : State) : Host.Outcome State Fault Refusal :=
  act (fun s => s.inEvent fun s => s.loseReference order) s

/-! ### HOUSE RATE -/

/-- The house rate of a rate in hundredths (11.3). -/
def rateOf (hundredths : Nat) : Option HouseRate :=
  if hundredths = 5000 then some .fps50 else if hundredths = 5994 then some .fps5994 else none

/-- HOUSE RATE (R8, R178). The reference state FREE is answered as 0, from the status byte of 11.1 (DEDUCED,
notes/assumptions/49.md). -/
def houseRateRule (hundredths : BitVec 16) (s : State) : State × Reply :=
  match rateOf hundredths.toNat with
  | none => (s, .plain .badArgument)
  | some r =>
    (s.modTime fun t => { t with rate := r, ref := .free, qualifyingRun := 0, lastPulse := none, timerPlace := 0 },
      .okWith (beBytes 2 hundredths.toNat ++ [0]))

/-- Whether a HOUSE RATE of a station would be taken by the time base (R169, R178). -/
def State.takesHouseRate (s : State) (stn : Station) (hundredths : BitVec 16) : Bool :=
  (s.link stn).state != .off && !s.slotBusy stn && stn = 0 && (rateOf hundredths.toNat).isSome

/-- Start HOUSE RATE: taken as R8 states, and answered; a timer event whose moment has already passed is given at once
(R8, notes/assumptions/8.md). That house frame is taken inside the event of the command or of the desk frame that carries
it, so the two raise the table generation once between them (R62; DESIGN CHOICE, notes/assumptions/8.md). -/
def startHouseRate (stn : Station) (hundredths : BitVec 16) (moment : Nat) (order : List Reaction) (s : State) : State :=
  let t := startCommand stn .houseRate true (houseRateRule hundredths) s
  if s.takesHouseRate stn hundredths && decide (t.timeBase.due < moment) then t.timerGives moment order else t

/-- HOUSE_RATE. -/
def execHouseRate (stn : Station) (hundredths : BitVec 16) (moment : Nat) (order : List Reaction) (s : State) :
    Host.Outcome State Fault Refusal :=
  act (fun s => s.inEvent (startHouseRate stn hundredths moment order)) s

end Sys2Proof.Machine
end

