-- ==== Sys2Proof/Machine/Automation.lean ====
section
/-! DEFINITION. Machine/Automation.lean: CURVE SET (R179), STATION SET (R181), STATS (R182, R187), the controller restart
(R183), and hardware reset with the RESET line (R184). -/

namespace Sys2Proof.Machine

/-! ### CURVE SET -/

/-- A list of points in which none is less than the point before it (R179, check 3). -/
def isAscending : List Int → Bool
  | a :: b :: rest => decide (a ≤ b) && isAscending (b :: rest)
  | _ => true

/-- The three checks of R179 on the points of a new curve. -/
def curveFits (points : List Int) : Bool :=
  points.all (fun p => decide (0 ≤ p)) && decide (points.head? = some 0) && isAscending points

/-- The points of a curve as taken, each above 2,880 as 2,880 (R179). -/
def curveTaken (points : List Int) : Vector Nat 11 := Vector.ofFn fun i => min 2880 (points.getD i.val 0).toNat

/-- CURVE SET (R179). -/
def curveSetRule (points : List Int) (s : State) : State × Reply :=
  if curveFits points then
    ({ s with curve := curveTaken points }, .okWith ((curveTaken points).toList.flatMap (beBytes 2)))
  else (s, .plain .badArgument)

/-- Start CURVE SET (R179); it takes eleven points (R187). -/
def startCurveSet (stn : Station) (points : List (BitVec 16)) (s : State) : State :=
  startCommand stn .curveSet (decide (points.length = 11)) (curveSetRule (points.map (·.toInt))) s

/-! ### STATION SET -/

/-- A preroll clamped to 1 to 3,600 (R181). -/
def clampPreroll (n : Nat) : Nat := max 1 (min 3600 n)

/-- The settings a STATION SET carries, as taken (R181). -/
def settingsOf (markSet : Byte) (preroll preset : BitVec 16) (blend : Byte) : Settings :=
  { markSet := anglesOfBits markSet, preroll := clampPreroll preroll.toNat, playPreset := limitSpeed preset.toInt,
    blend := blend != 0 }

/-- The result data of STATION SET (11.2). -/
def settingsData (target : Station) (x : Settings) : List Byte :=
  [BitVec.ofNat 8 target.val, BitVec.ofNat 8 (bitsOfAngles x.markSet)] ++ beBytes 2 x.preroll ++
    signedBytes x.playPreset ++ [boolByte x.blend]

/-- STATION SET (R181). -/
def stationSetRule (target markSet : Byte) (preroll preset : BitVec 16) (blend : Byte) (s : State) : State × Reply :=
  match stationOf? target.toNat with
  | none => (s, .plain .badArgument)
  | some k =>
    if markSet = 0 then (s, .plain .badArgument)
    else
      let x := settingsOf markSet preroll preset blend
      ({ s with settings := vmod s.settings k fun _ => x }, .okWith (settingsData k x))

/-- Start STATION SET (R181). -/
def startStationSet (stn : Station) (target markSet : Byte) (preroll preset : BitVec 16) (blend : Byte) (s : State) :
    State :=
  startCommand stn .stationSet true (stationSetRule target markSet preroll preset blend) s

/-! ### STATS -/

/-- Counts read into result data, four bytes each (11.2). -/
def countBytes (counts : List Nat) : List Byte := counts.flatMap (beBytes 4)

/-- The presence byte of up to two frame numbers (11.2). -/
def presenceByte (first second : Bool) : Byte := bitByte [first, second]

/-- The eleven counts of an angle in the order of the table of R32. -/
def RecCounts.list (n : RecCounts) : List Nat :=
  [n.grants, n.formatRefusals, n.notRecordingRefusals, n.staleRefusals, n.overrunRefusals, n.starvedRefusals, n.missing,
   n.completions, n.writeFaults, n.portFaults, n.absences]

/-- The eight counts of a channel in the order of R130. -/
def ChanCounts.list (n : ChanCounts) : List Nat :=
  [n.issued, n.lateSkips, n.unshown, n.readFaults, n.stale, n.unmatched, n.fitLimited, n.cueSkips]

/-- The ten counts of a link in the order of R174. -/
def LinkCounts.list (n : LinkCounts) : List Nat :=
  [n.accepted, n.formatFaults, n.crcFaults, n.mismatches, n.lossEntries, n.graceExpiries, n.commandsTaken, n.busyAnswers,
   n.reportsSent, n.reportSkips]

/-- A STATS answer: the data read in the event, then the counts cleared if the clear option is yes (R182). -/
def readCounts (data : List Byte) (clear : Bool) (cleared s : State) : State × Reply :=
  (if clear then cleared else s, .okWith data)

/-- STATS of the time base (R10, R182). -/
def statsTimeBaseRule (index : Byte) (clear part : Bool) (s : State) : State × Reply :=
  if part || index != 0 then (s, .plain .badArgument)
  else
    readCounts (countBytes [s.timeBase.lossCount, s.timeBase.relockCount, s.timeBase.unqualifiedCount]) clear
      (s.modTime fun t => { t with lossCount := 0, relockCount := 0, unqualifiedCount := 0 }) s

/-- The record context values that part 1 of a recorder STATS reads (11.2). The presence byte is 1 for PRESENT and 0 for
ABSENT, a code the spec does not give (DESIGN CHOICE, notes/assumptions/38.md); the record state has the code of the
REC START row (DEDUCED, notes/assumptions/49.md). -/
def State.recordData (s : State) (a : Angle) : List Byte :=
  let r := s.recorder a
  [BitVec.ofNat 8 r.state.code, BitVec.ofNat 8 r.rateMultiple] ++ beBytes 2 r.quota ++
    [boolByte r.present, presenceByte r.newest.isSome r.liveEdge.isSome] ++ s.frameBytes 0 r.newest ++
    s.frameBytes 1 r.liveEdge

/-- STATS of the recorder (R32, R182, R187). Part 1 reads no counts, so its clear option clears nothing. -/
def statsRecorderRule (index : Byte) (clear part : Bool) (s : State) : State × Reply :=
  if index = 0 then
    if part then (s, .plain .badArgument)
    else readCounts (countBytes [s.unknownAngles]) clear { s with unknownAngles := 0 } s
  else
    match angleOf? index.toNat with
    | none => (s, .plain .badArgument)
    | some a =>
      if part then (s, .okWith (s.recordData a))
      else readCounts (countBytes (s.recorder a).counts.list) clear (s.modRecCounts a fun _ => .zero) s

/-- The values that a page store STATS of an angle reads with its counts (R57, 11.2). -/
def State.listData (s : State) (a : Angle) : List Byte :=
  let l := s.pageList a
  beBytes 2 l.length ++ beBytes 2 (((s.fillingPage a).map (·.number)).getD 65535) ++
    presenceByte l.head?.isSome false :: s.frameBytes 0 (l.head?.map (·.firstFrame))

/-- STATS of the page store (R57, R182). -/
def statsPageStoreRule (index : Byte) (clear part : Bool) (s : State) : State × Reply :=
  if part then (s, .plain .badArgument)
  else if index = 0 then
    readCounts (countBytes [s.pages.mismatches] ++ beBytes 2 s.pages.pool.length ++ beBytes 2 s.pages.scans.length) clear
      { s with pages := { s.pages with mismatches := 0 } } s
  else
    match angleOf? index.toNat with
    | none => (s, .plain .badArgument)
    | some a =>
      readCounts (countBytes [s.pages.reclaimed.get a, s.pages.starvations.get a] ++ s.listData a) clear
        { s with pages := { s.pages with
            reclaimed := vmod s.pages.reclaimed a fun _ => 0
            starvations := vmod s.pages.starvations a fun _ => 0 } } s

/-- The values that a channel STATS reads with its counts (11.2); the last shown tag byte is free while there is none
(notes/assumptions/9.md). -/
def State.fetchData (s : State) (c : Chan) : List Byte :=
  let ch := s.chan c
  let tag := fun (i : Nat) => BitVec.ofNat 8 ((ch.inFlight[i]?.map (·.tag)).getD 0)
  [BitVec.ofNat 8 ch.inFlight.length, tag 0, tag 1, BitVec.ofNat 8 ch.nextTag,
    (match ch.lastShown with
      | some t => BitVec.ofNat 8 t
      | none => s.freeByte .lastShownTag),
    bitByte [ch.frameValid, ch.lastShown.isSome]]

/-- STATS of a channel (R130, R182). -/
def statsChannelRule (index : Byte) (clear part : Bool) (s : State) : State × Reply :=
  if part then (s, .plain .badArgument)
  else if index = 0 then readCounts (countBytes [s.unmatchedPartWide]) clear { s with unmatchedPartWide := 0 } s
  else
    match chanOf? index.toNat with
    | none => (s, .plain .badArgument)
    | some c =>
      readCounts (countBytes (s.chan c).counts.list ++ s.fetchData c) clear (s.modChanCounts c fun _ => .zero) s

/-- The values that a link STATS reads with its counts (11.2); no selected channel reads as 0
(notes/assumptions/34.md), and the state has the code of the LINK SET row (DEDUCED, notes/assumptions/49.md). -/
def Link.data (l : Link) : List Byte :=
  [BitVec.ofNat 8 l.state.code, boolByte l.enabled, BitVec.ofNat 8 l.divisor, optChanByte 0 l.selected]

/-- STATS of a link (R174, R182). -/
def statsLinkRule (index : Byte) (clear part : Bool) (s : State) : State × Reply :=
  if part then (s, .plain .badArgument)
  else
    match stationOf? index.toNat with
    | none => (s, .plain .badArgument)
    | some k =>
      readCounts (countBytes (s.link k).counts.list ++ (s.link k).data) clear (s.modLinkCounts k fun _ => .zero) s

/-- Start STATS with the rule of its block (R182). -/
def startStats (stn : Station) (rule : State → State × Reply) (s : State) : State := startCommand stn .stats true rule s

/-! ### RESTART -/

/-- A channel at a controller restart (R112, R129, R145): its next tag, last shown tag and counts are kept. -/
def Channel.restart (ch : Channel) : Channel :=
  { ch with head := none, gang := .none, black := false, cues := [], staged := false, inFlight := [],
            frameValid := false }

/-- The anchor and fetch parts of every hold count become 0 (R59). -/
def State.clearPins (s : State) : State :=
  { s with pages := { s.pages with
      lists := s.pages.lists.map fun l => l.map fun p => { p with anchorPins := 0, fetchHolds := 0 } } }

/-- A request of a fetch in flight (R145, notes/assumptions/28.md). -/
def State.isInFlight (s : State) (r : FetchRequest) : Bool := (s.chan r.channel).inFlight.any fun e => e.tag = r.tag

/-- A link at a controller restart (R175): an enabled link enters DOWN with its session values, and link 0 keeps its toggle
seen. The ack area of the RESTART follows with its answer. -/
def Link.restart (k : Station) (l : Link) : Link :=
  if l.enabled then { l.session with state := .down, toggleSeen := if k = 0 then l.toggleSeen else false } else l

/-- The requests of fetches in flight that still wait at the fetch port are withdrawn (R145). -/
def State.withdrawFetches (s : State) : State := { s with fetchOut := s.fetchOut.filter fun r => !s.isInFlight r }

/-- Every channel takes its values of a controller restart (R112, R129, R145). -/
def State.restartChannels (s : State) : State := { s with channels := s.channels.map Channel.restart }

/-- The arbiter takes its values of a controller restart (R160). -/
def State.restartArbiter (s : State) : State := { s with arbiter := .reset }

/-- The controller restart, one event (R183): the channels leave CLIP with the use counts they held (R84), and then every
block takes what section 10.6 sets. The channels leave in ascending order, and in that order the REMOVE scans of the RETIRING
clips they free join the scan queue (DESIGN CHOICE, notes/assumptions/39.md). -/
def State.restart (s : State) : State :=
  allStations.foldl (fun t k => t.modLink k (Link.restart k))
    (allChans.foldl (fun t c => t.leaveClip c) s).clearPins.withdrawFetches.restartChannels.restartArbiter

/-- Start RESTART (R183). -/
def startRestart (stn : Station) (s : State) : State :=
  startCommand stn .restart true (fun s => (s.restart, .plain .ok)) s

/-! ### The commands -/

/-- CURVE_SET. -/
def execCurveSet (stn : Station) (points : List (BitVec 16)) (s : State) : Host.Outcome State Fault Refusal :=
  act (startCurveSet stn points) s

/-- STATION_SET. -/
def execStationSet (stn : Station) (target markSet : Byte) (preroll preset : BitVec 16) (blend : Byte) (s : State) :
    Host.Outcome State Fault Refusal :=
  act (startStationSet stn target markSet preroll preset blend) s

/-- STATS_TIME_BASE. -/
def execStatsTimeBase (stn : Station) (index : Byte) (clear part : Bool) (s : State) :
    Host.Outcome State Fault Refusal :=
  act (startStats stn (statsTimeBaseRule index clear part)) s

/-- STATS_RECORDER. -/
def execStatsRecorder (stn : Station) (index : Byte) (clear part : Bool) (s : State) :
    Host.Outcome State Fault Refusal :=
  act (startStats stn (statsRecorderRule index clear part)) s

/-- STATS_PAGE_STORE. -/
def execStatsPageStore (stn : Station) (index : Byte) (clear part : Bool) (s : State) :
    Host.Outcome State Fault Refusal :=
  act (startStats stn (statsPageStoreRule index clear part)) s

/-- STATS_CHANNEL. -/
def execStatsChannel (stn : Station) (index : Byte) (clear part : Bool) (s : State) :
    Host.Outcome State Fault Refusal :=
  act (startStats stn (statsChannelRule index clear part)) s

/-- STATS_LINK. -/
def execStatsLink (stn : Station) (index : Byte) (clear part : Bool) (s : State) : Host.Outcome State Fault Refusal :=
  act (startStats stn (statsLinkRule index clear part)) s

/-- RESTART. -/
def execRestart (stn : Station) (s : State) : Host.Outcome State Fault Refusal :=
  act (fun s => s.inEvent (startRestart stn)) s

/-- HARDWARE_RESET (R184): the release of RESET at a moment, which becomes the last event time (R11). Every item takes its
hardware reset value; the commands still waiting in the model's queue are taken after the release. -/
def execHardwareReset (moment : Nat) (s : State) : Host.Outcome State Fault Refusal :=
  .next { State.reset with timeBase := { TimeBase.reset with lastEvent := moment }
                           draws := s.draws, pending := s.pending }

/-- RESET_LINE_HELD (R184): from here to the release the part takes nothing and sends nothing; a report in transmission is
broken off, and nothing waiting at a port is handed over. -/
def execResetLineHeld (s : State) : Host.Outcome State Fault Refusal :=
  .next { s with resetHeld := true, links := s.links.map fun l => { l with tx := none } }

end Sys2Proof.Machine
end

