-- ==== Sys2Proof/Machine/DeskFrames.lean ====
section
/-! DEFINITION. Machine/DeskFrames.lean: the reception of desk frames (R162) and what an accepted one does: link state,
lever history and keys (R163, R164, R166, R167), the channel work of R87, and the command handshake (R168, R169). -/

namespace Sys2Proof.Machine

/-! ### Keys and lever -/

/-- The state of a key after it is seen held or released (R167). -/
def KeyState.judge : KeyState → Bool → KeyState
  | _, false => .ready
  | .ready, true => .pressed
  | .pressed, true => .spent
  | .spent, true => .spent

/-- A key acts when it is seen held in PRESSED (R167). -/
def KeyState.acts (x : KeyState) (held : Bool) : Bool := x = .pressed && held

/-- The keys that act in a frame, in the order of R87, numbered as the bits of 11.1. -/
def Link.actingKeys (l : Link) (held : Byte) : List (Fin 8) :=
  [0, 1, 2, 3, 4, 5, 6, 7].filter fun i => (l.keys.get i).acts (held.getLsbD i.val)

/-- A reading joins the lever history and the oldest leaves it (R166). -/
def LeverHistory.push (x : LeverHistory) (reading : Int) : LeverHistory :=
  { oldest := x.middle, middle := x.newest, newest := reading }

/-- The lever value, the median of the three readings (R166). -/
def LeverHistory.median (x : LeverHistory) : Int :=
  max (min x.oldest x.middle) (min (max x.oldest x.middle) x.newest)

/-- What an accepted desk frame does to its link before the channel work: the count, the loss count and the link state
(R162 to R164), the lever history (R166), the key states (R167) and the listing hold (R173). -/
def Link.accept (l : Link) (f : DeskFrame) : Link :=
  { l with
      state := .up
      lossCount := 0
      lever := l.lever.push f.leverReading
      keys := Vector.ofFn fun i => (l.keys.get i).judge (f.keys.getLsbD i.val)
      listingHold := f.listingHold
      counts := { l.counts with accepted := satInc l.counts.accepted } }

/-! ### Key actions -/

/-- A mark key refused with TABLE_FULL or BUSY raises KEY_IGNORED (R81). -/
def markKey (k : Station) (r : State × Reply) : State :=
  if r.2.result = some .tableFull || r.2.result = some .busy then r.1.keyIgnored k else r.1

/-- A PLAY, PAUSE or LIVE key acts on the lever target; without one, or on an IDLE one, it is dropped (R87). -/
def State.targetKey (s : State) (k : Station) (action : Chan → State → State) : State :=
  match s.leverTarget k with
  | none => s.keyIgnored k
  | some c => if (s.chan c).head.isNone then s.keyIgnored k else action c s

/-- The TAKE key (R158). -/
def State.takeKey (s : State) (k : Station) : State := if s.mayTake k then s.swapRoutes else s.keyIgnored k

/-- The CUE NEXT key (R124). -/
def State.cueNextKey (s : State) (k : Station) : State :=
  match s.leverTarget k with
  | none => s.keyIgnored k
  | some c =>
    let r := s.cueNext c
    if !r.2 && (s.chan c).cues.isEmpty then r.1.keyIgnored k else r.1

/-- The ANGLE NEXT key (R104). -/
def State.angleNextKey (s : State) (k : Station) : State :=
  match (s.link k).selected with
  | none => s.keyIgnored k
  | some c =>
    match (s.chan c).head with
    | none => s.keyIgnored k
    | some h =>
      match s.nextAngle h with
      | some a => s.changeAngle c a h
      | none => s.keyIgnored k

/-- The action of a confirmed key (R167), numbered as the bits of 11.1. -/
def State.keyAction (s : State) (k : Station) : Fin 8 → State
  | 0 => markKey k (s.takeMarkIn k)
  | 1 => markKey k (s.takeMarkOut k)
  | 2 => s.targetKey k fun c s => (s.disarm k c).play c (s.setting k).playPreset none
  | 3 => s.targetKey k fun c s => s.pause c
  | 4 => s.targetKey k fun c s => s.goLive c
  | 5 => s.takeKey k
  | 6 => s.cueNextKey k
  | 7 => s.angleNextKey k

/-! ### The command of a frame -/

/-- The start of a command row; the rows that are no command messages start nothing. -/
def startRow : Instr → State → State
  | .markIn stn => startMarkIn stn
  | .markOut stn => startMarkOut stn
  | .protect stn id serial => startProtect stn id serial
  | .unprotect stn id serial => startUnprotect stn id serial
  | .delete stn id serial => startDelete stn id serial
  | .label stn id serial text => startLabel stn id serial text
  | .tagAdd stn id serial tag => startTagAdd stn id serial tag
  | .tagRemove stn id serial tag => startTagRemove stn id serial tag
  | .hero stn id serial angle => startHero stn id serial angle
  | .play stn channel pace => startPlay stn channel pace
  | .pause stn channel => startPause stn channel
  | .live stn channel => startLive stn channel
  | .load stn channel angle houseFrame => startLoad stn channel angle houseFrame
  | .angle stn channel angle => startAngle stn channel angle
  | .unload stn channel => startUnload stn channel
  | .black stn channel => startBlack stn channel
  | .unblack stn channel => startUnblack stn channel
  | .gang stn leader followers => startGang stn leader followers
  | .ungang stn channel => startUngang stn channel
  | .loadClip stn channel id serial angle pace => startLoadClip stn channel id serial angle pace
  | .cueAdd stn channel id serial angle pace => startCueAdd stn channel id serial angle pace
  | .cueClear stn channel => startCueClear stn channel
  | .cueNext stn channel => startCueNext stn channel
  | .claim stn channel => startClaim stn channel
  | .cancel stn => startCancel stn
  | .release stn channel => startRelease stn channel
  | .select stn channel => startSelect stn channel
  | .cut stn channel => startCut stn channel
  | .preview stn channel => startPreview stn channel
  | .take stn => startTake stn
  | .forceRelease stn channel => startForceRelease stn channel
  | .list stn filter => startList stn filter
  | .angleSet stn angle rateMultiple quota => startAngleSet stn angle rateMultiple quota
  | .recStart stn angle => startRecStart stn angle
  | .recStop stn angle => startRecStop stn angle
  | .houseRate stn hundredths moment order => startHouseRate stn hundredths moment order
  | .curveSet stn points => startCurveSet stn points
  | .linkSet stn k enable divisor => startLinkSet stn k enable divisor
  | .stationSet stn target markSet preroll preset blend => startStationSet stn target markSet preroll preset blend
  | .statsTimeBase stn index clear part => startStats stn (statsTimeBaseRule index clear part)
  | .statsRecorder stn index clear part => startStats stn (statsRecorderRule index clear part)
  | .statsPageStore stn index clear part => startStats stn (statsPageStoreRule index clear part)
  | .statsChannel stn index clear part => startStats stn (statsChannelRule index clear part)
  | .statsLink stn index clear part => startStats stn (statsLinkRule index clear part)
  | .restart stn => startRestart stn
  | .hardwareReset _ | .referencePulse _ _ | .timerEvent _ | .referenceLoss _ | .angleAbsent _ | .arrivalNotice _ _ _
  | .writeCompletion _ _ _ | .scanVisit | .fetchCompletion _ _ _ | .coolDownEnd _ _ | .claimTimeout _ | .linkLoss _
  | .graceExpiry _ | .alertTimerExpiry _ _ | .interbyteTimeout _ _ _ | .deskFrame _ _ _ _ | .reportTransmissionEnd _
  | .resetLineHeld => id

/-- The answer BAD_ARGUMENT of an owning block that changes nothing. -/
def badArgumentRule (s : State) : State × Reply := (s, .plain .badArgument)

/-- A command message is started (R169): its kind code, then its arguments. `moment` and `order` go with the frame. -/
def startMessage (k : Station) (moment : Nat) (order : List Reaction) (message : List Byte) (s : State) : State :=
  match message with
  | [] => s
  | code :: args =>
    match CommandKind.ofCode? code.toNat with
    | none => startUnknown k code.toNat s
    | some kind =>
      match decodeMessage k moment order kind args with
      | .row i => startRow i s
      | .unfit => startCommand k kind false badArgumentRule s
      | .unknownBlock => startStats k badArgumentRule s

/-- The command handshake of an accepted frame (R168). -/
def State.handshake (s : State) (k : Station) (moment : Nat) (order : List Reaction) (f : DeskFrame) : State :=
  let l := s.link k
  if !l.toggleSynced then s.modLink k fun l => { l with toggleSeen := f.toggle, toggleSynced := true }
  else if f.toggle = l.toggleSeen then s
  else
    match f.command with
    | none => s
    | some message =>
      startMessage k moment order message (s.modLink k fun l => { l with toggleSeen := f.toggle })

/-! ### Reception -/

/-- An accepted desk frame, one event of its link controller (R87, R162). -/
def State.acceptFrame (s : State) (k : Station) (moment : Nat) (order : List Reaction) (f : DeskFrame) : State :=
  let acting := (s.link k).actingKeys f.keys
  let t := s.modLink k fun l => l.accept f
  let t := (t.leverWork k (t.link k).lever.median).jogWork k f.jogCount
  let t := acting.foldl (fun t i => t.keyAction k i) t
  t.handshake k moment order f

/-- The count of a rejected frame rises by 1 (R162). -/
def State.countFault (s : State) (k : Station) (fault : FrameFault) : State :=
  s.modLinkCounts k fun n =>
    match fault with
    | .format => { n with formatFaults := satInc n.formatFaults }
    | .crc => { n with crcFaults := satInc n.crcFaults }
    | .station => { n with mismatches := satInc n.mismatches }

/-- A link with no frame in reception; the next start byte is received at the divisor as it stands (R161). -/
def Link.clearRx (l : Link) : Link := { l with rx := [], rxDivisor := l.divisor }

/-- A rejected frame is counted, and no frame is in reception (R162). -/
def State.rejectFrame (s : State) (k : Station) (fault : FrameFault) : State :=
  (s.countFault k fault).modLink k Link.clearRx

/-- Assemble and judge the frames of a list of bytes (R162, R185). After a rejection the search goes on at the byte after
the rejected frame's start byte, and a frame found there is received at the divisor as it stands (R161,
notes/assumptions/18.md). An unfinished frame waits in `rx`, or, after a byte gap (`gap`), is a format fault. A link
in OFF takes nothing. `fuel` bounds the frames looked at by the number of bytes. -/
def State.receive (k : Station) (gap : Bool) (moment : Nat) (order : List Reaction) :
    Nat → List RxByte → State → State
  | 0, _, s => s
  | fuel + 1, bytes, s =>
    if (s.link k).state = .off then s
    else
      match fromStart bytes with
      | [] => s.modLink k Link.clearRx
      | b :: after =>
        match judgeFrame k after with
        | .incomplete =>
          if gap then State.receive k gap moment order fuel after (s.rejectFrame k .format)
          else s.modLink k fun l => { l with rx := b :: after }
        | .rejected fault => State.receive k gap moment order fuel after (s.rejectFrame k fault)
        | .accepted f rest =>
          State.receive k gap moment order fuel rest
            ((s.modLink k Link.clearRx).inEvent fun s => s.acceptFrame k moment order f)

/-- Bytes arrive on a receive line (R162). -/
def State.receiveBytes (s : State) (k : Station) (gap : Bool) (moment : Nat) (order : List Reaction)
    (bytes : List RxByte) : State :=
  let all := (s.link k).rx ++ bytes
  State.receive k gap moment order (all.length + 1) all s

/-- DESK_FRAME (R162): bytes arrive on the receive line of a link, the last of them at a moment. -/
def execDeskFrame (k : Station) (bytes : List RxByte) (moment : Nat) (order : List Reaction) (s : State) :
    Host.Outcome State Fault Refusal :=
  act (fun s => s.receiveBytes k false moment order bytes) s

/-- INTERBYTE_TIMEOUT (R162): more than 16 byte periods have passed since the last byte of a frame in reception. -/
def execInterbyteTimeout (k : Station) (moment : Nat) (order : List Reaction) (s : State) :
    Host.Outcome State Fault Refusal :=
  act (fun s => if (s.link k).rx.isEmpty then s else s.receiveBytes k true moment order []) s

end Sys2Proof.Machine
end

