-- ==== Sys2Proof/Machine/Dispatch.lean ====
section
/-! DEFINITION. Machine/Dispatch.lean: one arm per command, each a direct call of its meaning. -/

namespace Sys2Proof.Machine

/-- The effect of a command on everything but the queue. -/
def exec (i : Instr) (s : State) : Host.Outcome State Fault Refusal :=
  match i with
  | .hardwareReset moment => Sys2Proof.Machine.execHardwareReset moment s
  | .referencePulse moment order => Sys2Proof.Machine.execReferencePulse moment order s
  | .timerEvent order => Sys2Proof.Machine.execTimerEvent order s
  | .referenceLoss order => Sys2Proof.Machine.execReferenceLoss order s
  | .angleAbsent a => Sys2Proof.Machine.execAngleAbsent a s
  | .arrivalNotice angle stamp phase => Sys2Proof.Machine.execArrivalNotice angle stamp phase s
  | .writeCompletion angle slot status => Sys2Proof.Machine.execWriteCompletion angle slot status s
  | .scanVisit => Sys2Proof.Machine.execScanVisit s
  | .fetchCompletion channel tag status => Sys2Proof.Machine.execFetchCompletion channel tag status s
  | .coolDownEnd stn c => Sys2Proof.Machine.execCoolDownEnd stn c s
  | .claimTimeout stn => Sys2Proof.Machine.execClaimTimeout stn s
  | .linkLoss k => Sys2Proof.Machine.execLinkLoss k s
  | .graceExpiry k => Sys2Proof.Machine.execGraceExpiry k s
  | .alertTimerExpiry k alert => Sys2Proof.Machine.execAlertTimerExpiry k alert s
  | .interbyteTimeout k moment order => Sys2Proof.Machine.execInterbyteTimeout k moment order s
  | .deskFrame k bytes moment order => Sys2Proof.Machine.execDeskFrame k bytes moment order s
  | .markIn stn => Sys2Proof.Machine.execMarkIn stn s
  | .markOut stn => Sys2Proof.Machine.execMarkOut stn s
  | .protect stn id serial => Sys2Proof.Machine.execProtect stn id serial s
  | .unprotect stn id serial => Sys2Proof.Machine.execUnprotect stn id serial s
  | .delete stn id serial => Sys2Proof.Machine.execDelete stn id serial s
  | .label stn id serial text => Sys2Proof.Machine.execLabel stn id serial text s
  | .tagAdd stn id serial tag => Sys2Proof.Machine.execTagAdd stn id serial tag s
  | .tagRemove stn id serial tag => Sys2Proof.Machine.execTagRemove stn id serial tag s
  | .hero stn id serial angle => Sys2Proof.Machine.execHero stn id serial angle s
  | .play stn channel pace => Sys2Proof.Machine.execPlay stn channel pace s
  | .pause stn channel => Sys2Proof.Machine.execPause stn channel s
  | .live stn channel => Sys2Proof.Machine.execLive stn channel s
  | .load stn channel angle houseFrame => Sys2Proof.Machine.execLoad stn channel angle houseFrame s
  | .angle stn channel angle => Sys2Proof.Machine.execAngle stn channel angle s
  | .unload stn channel => Sys2Proof.Machine.execUnload stn channel s
  | .black stn channel => Sys2Proof.Machine.execBlack stn channel s
  | .unblack stn channel => Sys2Proof.Machine.execUnblack stn channel s
  | .gang stn leader followers => Sys2Proof.Machine.execGang stn leader followers s
  | .ungang stn channel => Sys2Proof.Machine.execUngang stn channel s
  | .loadClip stn channel id serial angle pace => Sys2Proof.Machine.execLoadClip stn channel id serial angle pace s
  | .cueAdd stn channel id serial angle pace => Sys2Proof.Machine.execCueAdd stn channel id serial angle pace s
  | .cueClear stn channel => Sys2Proof.Machine.execCueClear stn channel s
  | .cueNext stn channel => Sys2Proof.Machine.execCueNext stn channel s
  | .claim stn channel => Sys2Proof.Machine.execClaim stn channel s
  | .cancel stn => Sys2Proof.Machine.execCancel stn s
  | .release stn channel => Sys2Proof.Machine.execRelease stn channel s
  | .select stn channel => Sys2Proof.Machine.execSelect stn channel s
  | .cut stn channel => Sys2Proof.Machine.execCut stn channel s
  | .preview stn channel => Sys2Proof.Machine.execPreview stn channel s
  | .take stn => Sys2Proof.Machine.execTake stn s
  | .forceRelease stn channel => Sys2Proof.Machine.execForceRelease stn channel s
  | .list stn filter => Sys2Proof.Machine.execList stn filter s
  | .angleSet stn angle rateMultiple quota => Sys2Proof.Machine.execAngleSet stn angle rateMultiple quota s
  | .recStart stn angle => Sys2Proof.Machine.execRecStart stn angle s
  | .recStop stn angle => Sys2Proof.Machine.execRecStop stn angle s
  | .houseRate stn hundredths moment order => Sys2Proof.Machine.execHouseRate stn hundredths moment order s
  | .curveSet stn points => Sys2Proof.Machine.execCurveSet stn points s
  | .linkSet stn k enable divisor => Sys2Proof.Machine.execLinkSet stn k enable divisor s
  | .stationSet stn target markSet preroll preset blend => Sys2Proof.Machine.execStationSet stn target markSet preroll preset blend s
  | .statsTimeBase stn index clear part => Sys2Proof.Machine.execStatsTimeBase stn index clear part s
  | .statsRecorder stn index clear part => Sys2Proof.Machine.execStatsRecorder stn index clear part s
  | .statsPageStore stn index clear part => Sys2Proof.Machine.execStatsPageStore stn index clear part s
  | .statsChannel stn index clear part => Sys2Proof.Machine.execStatsChannel stn index clear part s
  | .statsLink stn index clear part => Sys2Proof.Machine.execStatsLink stn index clear part s
  | .restart stn => Sys2Proof.Machine.execRestart stn s
  | .reportTransmissionEnd k => Sys2Proof.Machine.execReportTransmissionEnd k s
  | .resetLineHeld => Sys2Proof.Machine.execResetLineHeld s

end Sys2Proof.Machine
end

