-- ==== Sys2Proof/Machine/Step.lean ====
section
/-! DEFINITION. Machine/Step.lean: one step: the front command of the queue, or, on an empty queue, the handover at the
two output ports. -/

namespace Sys2Proof.Machine

/-- With no command waiting, each output port hands over its oldest word, if it has one, to a front-end or a renderer that
is ready (R18, R136, notes/assumptions/4.md); while RESET is held nothing is sent (R184). -/
def State.handOver (s : State) : State :=
  if s.resetHeld then s else { s with ingestOut := s.ingestOut.tail, fetchOut := s.fetchOut.tail }

/-- One step: the command at the front of the queue is taken, with the queue's rest. -/
def step (s : State) : Host.Outcome State Fault Refusal :=
  match s.pending with
  | [] => .next s.handOver
  | c :: rest => exec c { s with pending := rest }

/-- The state with the command a word spells put at the front of its queue. -/
def State.withFetchWord (s : State) (nbits w : Nat) : State :=
  match decodeTableWord nbits w with
  | some c => { s with pending := c :: s.pending }
  | none => s

end Sys2Proof.Machine
end

