-- ==== Sys2Proof/Safety.lean ====
section
/-! DEFINITION. Safety.lean: the terms the claims use: what a command leaves alone, when the part takes a station's command
and what its answer writes, and the limits that every step keeps. -/

namespace Sys2Proof.Machine

/-! ### What a command leaves alone -/

/-- The parts of the state, for saying which of them a command may change. -/
inductive Part where
  | timeBase
  | recorders
  | unknownAngles
  | ingestOut
  /-- The free pool, and which pages stand in which record list, in which order. -/
  | pageNumbers
  /-- The page records in the lists, the scan queue and the page store's counts. -/
  | pages
  | clips
  /-- The cue queues of the channels. -/
  | cues
  /-- The fetches in flight and the next tags of the channels. -/
  | fetches
  /-- All else of the channels. -/
  | channels
  | unmatchedPartWide
  | fetchOut
  /-- PGM and PVW. -/
  | routes
  /-- The claim holders, the pending claims and the cool-downs. -/
  | claims
  /-- The states and the enables of the links. -/
  | linkStates
  /-- All else of the links. -/
  | links
  | curve
  | settings
  | resetHeld
  | draws
  | pending
  deriving DecidableEq, Repr

/-- A link without its state and enable. -/
def Link.rest (l : Link) : Link := { l with state := .off, enabled := false }

/-- A channel without its cue queue, its fetches in flight and its next tag. -/
def Channel.rest (ch : Channel) : Channel := { ch with cues := [], inFlight := [], nextTag := 0 }

/-- Two states agree on a part. -/
def State.agree (s t : State) : Part → Prop
  | .timeBase => t.timeBase = s.timeBase
  | .recorders => t.recorders = s.recorders
  | .unknownAngles => t.unknownAngles = s.unknownAngles
  | .ingestOut => t.ingestOut = s.ingestOut
  | .pageNumbers =>
    t.pages.pool = s.pages.pool ∧ ∀ a, (t.pageList a).map (·.number) = (s.pageList a).map (·.number)
  | .pages =>
    t.pages.lists = s.pages.lists ∧ t.pages.scans = s.pages.scans ∧ t.pages.reclaimed = s.pages.reclaimed ∧
      t.pages.starvations = s.pages.starvations ∧ t.pages.mismatches = s.pages.mismatches
  | .clips => t.clips = s.clips
  | .cues => ∀ c, (t.chan c).cues = (s.chan c).cues
  | .fetches => ∀ c, (t.chan c).inFlight = (s.chan c).inFlight ∧ (t.chan c).nextTag = (s.chan c).nextTag
  | .channels => ∀ c, (t.chan c).rest = (s.chan c).rest
  | .unmatchedPartWide => t.unmatchedPartWide = s.unmatchedPartWide
  | .fetchOut => t.fetchOut = s.fetchOut
  | .routes => t.arbiter.pgm = s.arbiter.pgm ∧ t.arbiter.pvw = s.arbiter.pvw
  | .claims =>
    t.arbiter.holders = s.arbiter.holders ∧ t.arbiter.claims = s.arbiter.claims ∧
      t.arbiter.coolDown = s.arbiter.coolDown
  | .linkStates => ∀ k, (t.link k).state = (s.link k).state ∧ (t.link k).enabled = (s.link k).enabled
  | .links => ∀ k, (t.link k).rest = (s.link k).rest
  | .curve => t.curve = s.curve
  | .settings => t.settings = s.settings
  | .resetHeld => t.resetHeld = s.resetHeld
  | .draws => t.draws = s.draws
  | .pending => t.pending = s.pending

/-- `t` agrees with `s` on every part but those named. -/
def Frame (touched : List Part) (s t : State) : Prop := ∀ p, p ∉ touched → s.agree t p

/-- What the start of a command by its station may change: the link's counts, its ack area and the numbering of free
bytes. -/
def startParts : List Part := [.links, .draws]

/-- What the move of a playhead and of its followers may change. -/
def headParts : List Part := [.channels, .pages] ++ startParts

/-- What a command of the clip table may change. -/
def clipParts : List Part := [.clips, .pages] ++ startParts

/-- What a change of playheads that may leave a clip may change. -/
def playParts : List Part := [.channels, .pages, .clips] ++ startParts

/-- What a house frame event may change. -/
def housePart : List Part :=
  [.timeBase, .recorders, .pages, .clips, .cues, .fetches, .channels, .fetchOut, .claims, .linkStates, .links, .draws]

/-- What an accepted desk frame may change: what its keys and any command can reach. -/
def deskParts : List Part :=
  [.timeBase, .recorders, .unknownAngles, .pageNumbers, .pages, .clips, .cues, .fetches, .channels, .unmatchedPartWide,
   .fetchOut, .routes, .claims, .linkStates, .links, .curve, .settings, .draws]

/-- The parts each command may change. -/
def touches : Instr → List Part
  | .hardwareReset _ =>
    [.timeBase, .recorders, .unknownAngles, .ingestOut, .pageNumbers, .pages, .clips, .cues, .fetches, .channels,
     .unmatchedPartWide, .fetchOut, .routes, .claims, .linkStates, .links, .curve, .settings, .resetHeld]
  | .referencePulse _ _ | .timerEvent _ | .referenceLoss _ => housePart
  | .angleAbsent _ => [.recorders, .links]
  | .arrivalNotice _ _ _ => [.recorders, .unknownAngles, .ingestOut, .pageNumbers, .pages, .links]
  | .writeCompletion _ _ _ => [.recorders, .unknownAngles, .pages, .links]
  | .scanVisit => [.pages, .clips]
  | .fetchCompletion _ _ _ => [.pages, .fetches, .channels, .unmatchedPartWide, .links]
  | .coolDownEnd _ _ => [.claims]
  | .claimTimeout _ => [.claims, .links]
  | .linkLoss _ => [.pages, .channels, .linkStates, .links]
  | .graceExpiry _ => [.pages, .clips, .channels, .claims, .linkStates, .links]
  | .alertTimerExpiry _ _ => [.links]
  | .interbyteTimeout _ _ _ | .deskFrame _ _ _ _ => deskParts
  | .markIn _ | .markOut _ | .protect _ _ _ | .unprotect _ _ _ | .delete _ _ _ | .label _ _ _ _ | .tagAdd _ _ _ _
  | .tagRemove _ _ _ _ | .hero _ _ _ _ => clipParts
  | .play _ _ _ | .pause _ _ | .angle _ _ _ | .ungang _ _ => headParts
  | .live _ _ | .load _ _ _ _ | .unload _ _ | .gang _ _ _ | .loadClip _ _ _ _ _ _ => playParts
  | .black _ _ | .unblack _ _ => .channels :: startParts
  | .cueAdd _ _ _ _ _ _ => .cues :: startParts
  | .cueClear _ _ => [.cues, .channels] ++ startParts
  | .cueNext _ _ => .cues :: playParts
  | .claim _ _ => .claims :: startParts
  | .cancel _ => .claims :: startParts
  | .release _ _ | .forceRelease _ _ => .claims :: headParts
  | .select _ _ => headParts
  | .cut _ _ | .preview _ _ | .take _ => .routes :: startParts
  | .list _ _ => startParts
  | .angleSet _ _ _ _ => [.recorders, .pageNumbers, .pages] ++ startParts
  | .recStart _ _ => .recorders :: startParts
  | .recStop _ _ => [.recorders, .pages] ++ startParts
  | .houseRate _ _ _ _ => housePart
  | .curveSet _ _ => .curve :: startParts
  | .linkSet _ _ _ _ => [.claims, .channels, .pages, .linkStates] ++ startParts
  | .stationSet _ _ _ _ _ _ => .settings :: startParts
  | .statsTimeBase _ _ _ _ => .timeBase :: startParts
  | .statsRecorder _ _ _ _ => [.recorders, .unknownAngles] ++ startParts
  | .statsPageStore _ _ _ _ => .pages :: startParts
  | .statsChannel _ _ _ _ => [.channels, .unmatchedPartWide] ++ startParts
  | .statsLink _ _ _ _ => startParts
  | .restart _ => [.cues, .fetches, .fetchOut, .routes, .claims, .linkStates] ++ playParts
  | .reportTransmissionEnd _ => [.links]
  | .resetLineHeld => [.links, .resetHeld]

/-! ### Starting a command -/

/-- The part takes the command of a station: RESET is released, the station's link is not OFF, and no pending CLAIM
occupies its command slot (R161, R169, R184). -/
abbrev State.hears (s : State) (stn : Station) : Prop :=
  s.resetHeld = false ∧ (s.link stn).state ≠ .off ∧ s.pendingClaim stn = none

/-- The state in which the owning block takes a command: its link has counted it (R169). -/
def State.counted (s : State) (stn : Station) : State :=
  (s.modLinkCounts stn fun n => { n with commandsTaken := satInc n.commandsTaken }).nextDraw

/-- The ack area of a command that has ended: DONE, its kind, its result and its result data (R170). -/
def doneAck (kind : CommandKind) (r : Result) (data : List Byte) : AckArea :=
  { state := .done, kind := some kind.code, result := some r, data := data }

/-- The answer to a command (R170). -/
def State.answered (s : State) (stn : Station) (kind : CommandKind) (r : Result) (data : List Byte) : State :=
  s.writeAck stn (doneAck kind r data)

/-- A station drives a channel: it holds it, or it is station 0 and the channel is unclaimed (R146). -/
abbrev State.drives (s : State) (stn : Station) (c : Chan) : Prop :=
  s.holder c = some stn ∨ (stn = 0 ∧ s.holder c = none)

/-- A command names a clip and may change it (R79). -/
abbrev State.ownsClip (s : State) (stn : Station) (id serial : BitVec 16) (clip : Clip) : Prop :=
  s.findClip id.toNat serial.toNat = some clip ∧ (stn = clip.owner ∨ stn = 0)

/-- The channel byte of a command whose channel is checked for its number and then for its claim before the command's own
rule: not of LOAD CLIP and CUE ADD with a clip id or an angle out of range, which are refused first (R88, R114, R122, R146,
R147). -/
def Instr.onChannel? : Instr → Option Byte
  | .play _ c _ | .pause _ c | .live _ c | .load _ c _ _ | .angle _ c _ | .unload _ c | .black _ c | .unblack _ c
  | .ungang _ c | .cueClear _ c | .cueNext _ c | .release _ c => some c
  | .select _ c => if c = 0 then none else some c
  | .loadClip _ c id _ angle _ | .cueAdd _ c id _ angle _ => if badClipOrAngle id angle then none else some c
  | _ => none

/-- The range test of a reference pulse against the tolerance of the rate, in fifths of a link clock period (1.2):
exactly 2% on both sides (notes/assumptions/2.md). -/
abbrev inTolerance (rate : HouseRate) (interval : Nat) : Prop :=
  98 * rate.period ≤ 100 * interval ∧ 100 * interval ≤ 102 * rate.period

/-- A channel that stands in no gang, and its playhead. -/
abbrev State.alone (s : State) (c : Chan) (h : Playhead) : Prop :=
  (s.chan c).head = some h ∧ (s.chan c).gang = .none

/-- The sum of the steps of `n` running advances from a speed mode, and the speed mode after them (R116). -/
def SpeedMode.after : Nat → SpeedMode → Int × SpeedMode
  | 0, x => (0, x)
  | n + 1, x => (x.step.1 + (x.step.2.after n).1, (x.step.2.after n).2)

/-- The pages that a scan visits on one angle, one after another, while the record list stands still (R54): at most `n` of
them. -/
def scanVisits (l : List Page) (m : Nat) (sc : Scan) : Nat → ScanAngle → List Page
  | 0, _ => []
  | n + 1, sa =>
    match scanTarget l m sc sa with
    | some (p, g) => p :: scanVisits l m sc n { sa with progress := some g }
    | none => []

/-- Bytes received without a framing error. -/
def cleanBytes (bytes : List Byte) : List RxByte := bytes.map fun b => { value := b, framingError := false }

/-- A desk frame that a station can send: a command message, if any, of 1 to 28 bytes (R185). -/
abbrev DeskFrame.fits (f : DeskFrame) : Prop :=
  ∀ message, f.command = some message → 1 ≤ message.length ∧ message.length ≤ 28

/-! ### Limits that every step keeps -/

/-- Every page number, in the pool or in a record list. -/
def State.pageNumbers (s : State) : List Nat := s.pages.pool ++ allAngles.flatMap fun a => (s.pageList a).map (·.number)

/-- Each of the 16,384 pages is in the free pool or in exactly one record list, and never in both (R38). -/
def State.PagesPlaced (s : State) : Prop := s.pageNumbers.Perm (List.range' 0 16384)

/-- The fetch state and the cue queue of a channel are in their ranges: at most two fetches in flight, no two with the same
tag, tags 0 to 255, at most 12 cues (R122, R130, R136). -/
def Channel.InRange (ch : Channel) : Prop :=
  ch.inFlight.length ≤ 2 ∧ (ch.inFlight.map (·.tag)).Nodup ∧ (∀ e ∈ ch.inFlight, e.tag < 256) ∧ ch.nextTag < 256 ∧
    ch.cues.length ≤ 12

/-- A lever curve meets the conditions of R89. -/
def CurveInRange (curve : Vector Nat 11) : Prop :=
  curve.get 0 = 0 ∧ (∀ i : Fin 10, curve.get i.castSucc ≤ curve.get i.succ) ∧ ∀ i : Fin 11, curve.get i ≤ 2880

/-- The limits of the control side that every step keeps: PGM and PVW differ (R157), a link is in OFF exactly when it is
disabled (R161), link 0 is enabled (R180), the channels and the curve are in range, and no event is left half taken
(notes/assumptions/11.md). -/
def State.InRange (s : State) : Prop :=
  s.arbiter.pgm ≠ s.arbiter.pvw ∧ (∀ k, (s.link k).enabled = true ↔ (s.link k).state ≠ .off) ∧
    (s.link 0).enabled = true ∧ (∀ c, (s.chan c).InRange) ∧ CurveInRange s.curve ∧ s.clips.raised = false

end Sys2Proof.Machine
end

