-- ==== Sys2Proof/Certificates/Slice0/Obligations.lean ====
section
/-! DEFINITION. Certificates/Slice0/Obligations.lean: the statements for the provers. A next state is written out as the
update of the state the command is taken in, so that each such statement gives the frame with the effect. -/

open Sys2Proof Sys2Proof.Machine

/-! ### Steps, reset, and what commands leave alone -/

/-- A step takes the front command of the queue with the queue's rest; on an empty queue the two ports hand over their
oldest words (the model's choice, notes/assumptions/4.md), and nothing while RESET is held. -/
def Obligations.StepTakesTheFrontCommand : Prop :=
  ∀ s : State,
    (∀ c rest, s.pending = c :: rest → step s = exec c { s with pending := rest }) ∧
    (s.pending = [] → s.resetHeld = false →
      step s = .next { s with ingestOut := s.ingestOut.tail, fetchOut := s.fetchOut.tail }) ∧
    (s.pending = [] → s.resetHeld = true → step s = .next s)

/-- HARDWARE_RESET leaves every item at its hardware reset value (R11, R33, R58, R83, R89, R112, R129, R144, R160, R175,
10.4), whatever the state before; the release is the last event time, and the model's own queue and drawing count are
kept. RESET_LINE_HELD breaks off the reports in transmission, and while RESET is held no command but the release changes
anything (R184). The moment of the release as an operand, the listing hold and the model's own fields are the model's
choices (notes/assumptions/17.md, 26.md and 32.md). -/
def Obligations.ResetAndTheHeldLine : Prop :=
   ((∀ (s : State) (moment : Nat),
      exec (.hardwareReset moment) s =
        .next { State.reset with
          timeBase := { TimeBase.reset with lastEvent := moment }, draws := s.draws, pending := s.pending }) ∧
    State.reset.timeBase =
      { ref := .free, rate := .fps5994, houseCount := 0, qualifyingRun := 0, lastPulse := none, lastEvent := 0,
        timerPlace := 0, lossCount := 0, relockCount := 0, unqualifiedCount := 0 } ∧
    (∀ a, State.reset.recorder a =
      { state := .stopped, rateMultiple := 1, quota := 2048, expected := none, newest := none, pendingWrites := [],
        liveEdge := none, present := false, silence := 3, counts := .zero }) ∧
    State.reset.unknownAngles = 0 ∧ State.reset.ingestOut = [] ∧
    State.reset.pages.pool = List.range' 0 16384 ∧ (∀ a, State.reset.pageList a = [] ∧ State.reset.span a = none) ∧
    State.reset.pages.scans = [] ∧ State.reset.pages.mismatches = 0 ∧
    (∀ a, State.reset.pages.reclaimed.get a = 0 ∧ State.reset.pages.starvations.get a = 0) ∧
    State.reset.clips.clips = [] ∧ State.reset.clips.serialCounter = 1 ∧ State.reset.clips.generation = 0 ∧
    (∀ a, State.reset.clips.openCounts.get a = 0) ∧
    (∀ c, State.reset.chan c =
      { head := none, gang := .none, black := false, cues := [], staged := false, inFlight := [], nextTag := 0,
        lastShown := none, frameValid := false, counts := .zero }) ∧
    State.reset.unmatchedPartWide = 0 ∧ State.reset.fetchOut = [] ∧
    (∀ c, State.reset.holder c = none) ∧ (∀ k, State.reset.pendingClaim k = none) ∧
    (∀ k c, State.reset.coolDownRun k c = none) ∧ State.reset.arbiter.pgm = 0 ∧ State.reset.arbiter.pvw = 1 ∧
    (∀ k, (State.reset.link k).state = .down ∧ (State.reset.link k).enabled = true ∧ (State.reset.link k).divisor = 4 ∧
      State.reset.link k = (State.reset.link k).session ∧ (State.reset.link k).counts = .zero) ∧
    State.reset.curve = #v[0, 18, 36, 72, 120, 180, 240, 360, 480, 720, 1440] ∧
    (∀ k, State.reset.setting k = { markSet := allAngles, preroll := 150, playPreset := 720, blend := true })) ∧
   ((∀ s : State,
      exec .resetLineHeld s =
        .next { s with resetHeld := true, links := s.links.map fun l => { l with tx := none } }) ∧
    ∀ (s : State) (i : Instr), s.resetHeld = true → (∀ moment, i ≠ .hardwareReset moment) → i ≠ .resetLineHeld →
      exec i s = .next s)

/-- Every command is taken, and changes no part of the state but those its rules give it (`touches`); the queue is none
of them. -/
def Obligations.CommandsTouchOnlyTheirParts : Prop :=
  ∀ (i : Instr) (s : State), ∃ t, exec i s = .next t ∧ Frame (touches i) s t ∧ .pending ∉ touches i

/-! ### The time base -/

/-- A house frame event raises the house count by 1 up to 4,294,967,295 and takes each reaction exactly once: those its
command names in the order named, then the rest (R1, R2). A channel that is not IDLE and no gang follower advances and
requests for itself and its followers, each member once at the event (R95, R131); the arbiter updates its cool-downs, then
grants, then ages the pending claims (R149 to R151). The order of the rest, the last pass over the channels and the order
of a gang's requests are the model's choices (notes/assumptions/1.md, 24.md and 43.md). That the channels are granted in
ascending order is its choice too (notes/assumptions/48.md). -/
def Obligations.HouseFrameRunsEveryReactionOnce : Prop :=
  (∀ (s : State) (order : List Reaction),
    let raised : State :=
      { s with timeBase := { s.timeBase with houseCount := min (s.timeBase.houseCount + 1) 4294967295 } }
    (s.houseFrame order).timeBase = raised.timeBase ∧
    s.houseFrame order =
      ([0, 1, 2, 3].foldl (fun w c => channelWork c w) ((fullOrder order).foldl react (raised, []))).1 ∧
    (∀ r, (fullOrder order).count r = 1) ∧
    (order.Nodup → ∃ rest, fullOrder order = order ++ rest)) ∧
  ∀ (s : State) (served : List Chan),
    react (s, served) .recorder = (s.recorderWork, served) ∧
    react (s, served) .arbiter =
      ([0, 1, 2, 3, 4].foldl (fun t k => t.ageClaim k) ([0, 1, 2, 3].foldl (fun t c => t.grantChan c)
        ([0, 1, 2, 3, 4].foldl (fun t k => [0, 1, 2, 3].foldl (fun t c => t.updateCoolDown k c) t) s)), served) ∧
    (∀ k, react (s, served) (.linkWatch k) = (s.watchLink k, served) ∧
      react (s, served) (.linkReport k) = (s.reportWork k, served)) ∧
    ∀ c, react (s, served) (.channel c) = channelWork c (s, served) ∧
      ((s.chan c).head = none ∨ s.isFollower c = true ∨ c ∈ served → channelWork c (s, served) = (s, served)) ∧
      ((s.chan c).head ≠ none → s.isFollower c = false → c ∉ served →
        let moved := s.advance c
        let members := c :: (moved.followersOf c).filter fun f => decide (f ∉ served)
        channelWork c (s, served) = (members.foldl (fun t m => t.requestFor m) moved, members ++ served))

/-- REFERENCE_PULSE: in LOCKED a house frame event; in FREE an unqualified or a qualifying pulse, or the relock, with an
event when at least half an expected period has passed since the last one (R3, R6, R7). TIMER_EVENT gives one in FREE,
one period of the pattern after the last event, and none in LOCKED; REFERENCE_LOSS in LOCKED gives one two expected
periods after the last pulse, in FREE, with the timer at the start of its pattern (R3, R4, R5). Moments in fifths of a
link clock period, and the exact 2% as the lower limit of the tolerance at 59.94, are the model's choice
(notes/assumptions/2.md). -/
def Obligations.HouseFrameEventsOfPulsesTimerAndLoss : Prop :=
   (∀ (s : State) (moment : Nat) (order : List Reaction), s.resetHeld = false →
      (s.timeBase.ref = .locked →
        exec (.referencePulse moment order) s =
          .next (s.inEvent fun u =>
            ({ u with timeBase := { u.timeBase with lastPulse := some moment, lastEvent := moment } } : State).houseFrame
              order)) ∧
      (s.timeBase.ref = .free →
        (∀ p, s.timeBase.lastPulse = some p → ¬ inTolerance s.timeBase.rate (moment - p)) →
        exec (.referencePulse moment order) s =
          .next (s.inEvent fun u =>
            { u with timeBase := { u.timeBase with
                qualifyingRun := 0, lastPulse := some moment
                unqualifiedCount := min (u.timeBase.unqualifiedCount + 1) 4294967295 } })) ∧
      (∀ p, s.timeBase.ref = .free → s.timeBase.lastPulse = some p → inTolerance s.timeBase.rate (moment - p) →
        s.timeBase.qualifyingRun < 3 →
        exec (.referencePulse moment order) s =
          .next (s.inEvent fun u =>
            { u with timeBase := { u.timeBase with
                qualifyingRun := u.timeBase.qualifyingRun + 1, lastPulse := some moment } })) ∧
      (∀ p, s.timeBase.ref = .free → s.timeBase.lastPulse = some p → inTolerance s.timeBase.rate (moment - p) →
        s.timeBase.qualifyingRun = 3 → s.timeBase.rate.period ≤ 2 * (moment - s.timeBase.lastEvent) →
        exec (.referencePulse moment order) s =
          .next (s.inEvent fun u =>
            ({ u with timeBase := { u.timeBase with
                ref := .locked, qualifyingRun := 0, lastPulse := some moment, lastEvent := moment
                relockCount := min (u.timeBase.relockCount + 1) 4294967295 } } : State).houseFrame order)) ∧
      (∀ p, s.timeBase.ref = .free → s.timeBase.lastPulse = some p → inTolerance s.timeBase.rate (moment - p) →
        s.timeBase.qualifyingRun = 3 → 2 * (moment - s.timeBase.lastEvent) < s.timeBase.rate.period →
        exec (.referencePulse moment order) s =
          .next (s.inEvent fun u =>
            { u with timeBase := { u.timeBase with
                ref := .locked, qualifyingRun := 0, lastPulse := some moment
                relockCount := min (u.timeBase.relockCount + 1) 4294967295 } }))) ∧
   (∀ (s : State) (order : List Reaction), s.resetHeld = false →
      (s.timeBase.ref = .free →
        exec (.timerEvent order) s =
          .next (s.inEvent fun u =>
            ({ u with timeBase := { u.timeBase with
                timerPlace := (u.timeBase.timerPlace + 1) % 5
                lastEvent := u.timeBase.lastEvent + (match u.timeBase.rate with
                  | .fps50 => 5 * 491520
                  | .fps5994 =>
                    if u.timeBase.timerPlace = 1 ∨ u.timeBase.timerPlace = 3 then 5 * 410009 else 5 * 410010) } } :
              State).houseFrame order)) ∧
      (s.timeBase.ref = .locked → exec (.timerEvent order) s = .next s) ∧
      (∀ p, s.timeBase.ref = .locked → s.timeBase.lastPulse = some p →
        exec (.referenceLoss order) s =
          .next (s.inEvent fun u =>
            ({ u with timeBase := { u.timeBase with
                ref := .free, qualifyingRun := 0, timerPlace := 0, lastEvent := p + 2 * u.timeBase.rate.period
                lossCount := min (u.timeBase.lossCount + 1) 4294967295 } } : State).houseFrame order)))

/-- HOUSE_RATE from station 0 with 5,000 or 5,994 hundredths turns the time base to FREE at that rate, with the pattern at
its start and no last pulse time, and is answered OK; a timer event already due is then given at once and the pattern
moves on (R8, R178). Another rate gives BAD_ARGUMENT. That such an event stands at the command's moment, after the answer
and in the same event, is the model's choice (notes/assumptions/8.md). The empty result data of BAD_ARGUMENT are deduced
(notes/assumptions/10.md), and so is the byte 0 of FREE (notes/assumptions/49.md). -/
def Obligations.HouseRateTurnsToFree : Prop :=
  ∀ (s : State) (hundredths : BitVec 16) (moment : Nat) (order : List Reaction), s.hears 0 →
    (∀ rate, (hundredths = 5000 ∧ rate = HouseRate.fps50 ∨ hundredths = 5994 ∧ rate = HouseRate.fps5994) →
      let set := fun u : State =>
        (({ u.counted 0 with timeBase := { u.timeBase with
            rate := rate, ref := .free, qualifyingRun := 0, lastPulse := none, timerPlace := 0 } } : State).answered 0
          .houseRate .ok [hundredths.extractLsb' 8 8, hundredths.extractLsb' 0 8, 0])
      exec (.houseRate 0 hundredths moment order) s =
        .next (s.inEvent fun u =>
          if s.timeBase.lastEvent + timerPeriod rate 0 < moment then
            ({ set u with timeBase := { (set u).timeBase with timerPlace := 1, lastEvent := moment } } : State).houseFrame
              order
          else set u)) ∧
    (hundredths ≠ 5000 → hundredths ≠ 5994 →
      exec (.houseRate 0 hundredths moment order) s =
        .next (s.inEvent fun u => (u.counted 0).answered 0 .houseRate .badArgument []))

/-! ### The recorder -/

/-- R19: a phase not below the rate multiple gives FORMAT; the stamp resolves, by its three cases, to the greatest house
frame not above the house count with those low 16 bits, or to none, which gives FORMAT; the frame number is t × m + phase.
-/
def Obligations.StampResolvesToTheGreatestFrame : Prop :=
  (∀ (s : State) (a : Angle) (stamp phase : Nat),
    (¬ phase < (s.recorder a).rateMultiple → s.judgeNotice a stamp phase = .error .format) ∧
    (resolveStamp s.timeBase.houseCount stamp = none → s.judgeNotice a stamp phase = .error .format) ∧
    (∀ n, s.judgeNotice a stamp phase = .ok n →
      ∃ t, resolveStamp s.timeBase.houseCount stamp = some t ∧ n = t * (s.recorder a).rateMultiple + phase)) ∧
  ∀ count stamp : Nat, stamp < 65536 →
    (stamp ≤ count % 65536 → resolveStamp count stamp = some (count - count % 65536 + stamp)) ∧
    (count % 65536 < stamp → 65536 ≤ count →
      resolveStamp count stamp = some (count - count % 65536 - 65536 + stamp)) ∧
    (count % 65536 < stamp → count < 65536 → resolveStamp count stamp = none) ∧
    (∀ t, resolveStamp count stamp = some t ↔
      (t ≤ count ∧ t % 65536 = stamp ∧ ∀ u, u ≤ count → u % 65536 = stamp → u ≤ t))

/-- ARRIVAL_NOTICE of the next frame of the FILLING page is granted the page's next slot. One that passes checks 1 to 5
and does not continue the FILLING page takes slot index 0 of a supplied page, with the frames between counted as
missing, or is refused with STARVED (R18, R22 to R25, R30). One refused by one of the checks 1 to 5 changes the presence
of its angle, the refusal count of its kind and the answers at the ingest port, and nothing else; one for no angle is
counted as unknown (R18 to R21, R25, R30). -/
def Obligations.NoticesAreGrantedOrRefused : Prop :=
   (∀ (s : State) (angle : BitVec 4) (stamp : BitVec 16) (phase : BitVec 3) (a : Angle) (n : Nat) (p : Page),
      s.resetHeld = false → angleOf? angle.toNat = some a → s.judgeNotice a stamp.toNat phase.toNat = .ok n →
      (s.recorder a).expected = some n → s.fillingPage a = some p → p.count < 64 →
      ((s.pageList a).map (·.number)).Nodup →
      exec (.arrivalNotice angle stamp phase) s =
        .next
          ({ (s.modPage p.number fun q => { q with count := q.count + 1, writeHolds := q.writeHolds + 1 }).modRecorder a
              fun r =>
                { r with
                    present := true, silence := 0
                    pendingWrites := r.pendingWrites ++ [{ slot := p.number * 64 + p.count, page := p.number, frame := n }]
                    newest := some n, expected := some (n + 1)
                    counts := { r.counts with
                      grants := min (r.counts.grants + 1) 4294967295, missing := min r.counts.missing 4294967295 } }
            with ingestOut := s.ingestOut ++
              [.grant angle phase stamp (p.number * 64 + p.count) (s.timeBase.houseCount % 65536)] } : State)) ∧
   (∀ (s : State) (angle : BitVec 4) (stamp : BitVec 16) (phase : BitVec 3) (a : Angle) (n : Nat),
      s.resetHeld = false → s.PagesPlaced → angleOf? angle.toNat = some a →
      s.judgeNotice a stamp.toNat phase.toNat = .ok n →
      (∀ p, s.fillingPage a = some p → (s.recorder a).expected = some n → 64 ≤ p.count) →
      let u := s.modRecorder a fun r => { r with present := true, silence := 0 }
      let missing := match (s.recorder a).expected with
        | some e => n - e
        | none => 0
      let low := s.timeBase.houseCount % 65536
      (∀ page, (u.supplyPage a n).2 = some page →
        let t := ((u.supplyPage a n).1.modPage page fun p =>
            { p with count := p.count + 1, writeHolds := p.writeHolds + 1 }).modRecorder a fun r =>
          { r with
              pendingWrites := r.pendingWrites ++ [{ slot := page * 64, page := page, frame := n }]
              newest := some n, expected := some (n + 1)
              counts := { r.counts with
                grants := min (r.counts.grants + 1) 4294967295
                missing := min (r.counts.missing + missing) 4294967295 } }
        let t := if missing = 0 then t else t.raiseAngleAlert (.missing a)
        exec (.arrivalNotice angle stamp phase) s =
          .next { t with ingestOut := t.ingestOut ++ [.grant angle phase stamp (page * 64) low] }) ∧
      ((u.supplyPage a n).2 = none →
        let t := ((u.supplyPage a n).1.modRecorder a fun r =>
          { r with counts := { r.counts with starvedRefusals := min (r.counts.starvedRefusals + 1) 4294967295 } }
          ).raiseAngleAlert (.starved a)
        exec (.arrivalNotice angle stamp phase) s =
          .next { t with ingestOut := t.ingestOut ++ [.refusal angle phase stamp .starved low] })) ∧
   (∀ (s : State) (angle : BitVec 4) (stamp : BitVec 16) (phase : BitVec 3), s.resetHeld = false →
     (angleOf? angle.toNat = none →
       exec (.arrivalNotice angle stamp phase) s =
         .next { s with
           unknownAngles := min (s.unknownAngles + 1) 4294967295
           ingestOut := s.ingestOut ++ [.refusal angle phase stamp .format (s.timeBase.houseCount % 65536)] }) ∧
     (∀ a kind, angleOf? angle.toNat = some a →
       (let r := s.recorder a
        let t := resolveStamp s.timeBase.houseCount stamp.toNat
        let n := t.getD 0 * r.rateMultiple + phase.toNat
        if r.rateMultiple ≤ phase.toNat ∨ t = none then kind = .format
        else if r.state ≠ .recording then kind = .notRecording
        else if ∃ x ∈ r.newest, n ≤ x then kind = .stale
        else 2 ≤ r.pendingWrites.length ∧ kind = .overrun) →
       exec (.arrivalNotice angle stamp phase) s =
         .next
           ({ s.modRecorder a fun r => { r with present := true, silence := 0, counts := r.counts.refuse kind }
             with ingestOut := s.ingestOut ++
               [.refusal angle phase stamp kind (s.timeBase.houseCount % 65536)] } : State)))

/-- WRITE_COMPLETION: one that names the head of the pending-write list takes it, moves the live edge and releases the
write hold, and a FAULT adds the slot index to the faulted set; any other is counted and changes nothing (R26 to R28). -/
def Obligations.WriteCompletionsMoveTheLiveEdge : Prop :=
  ∀ (s : State) (angle : BitVec 4) (slot : BitVec 20) (status : BitVec 2), s.resetHeld = false →
    (angleOf? angle.toNat = none →
      exec (.writeCompletion angle slot status) s =
        .next { s with unknownAngles := min (s.unknownAngles + 1) 4294967295 }) ∧
    (∀ a, angleOf? angle.toNat = some a →
      (∀ w ∈ (s.recorder a).pendingWrites.head?, w.slot ≠ slot.toNat) →
      exec (.writeCompletion angle slot status) s =
        .next (s.modRecCounts a fun n => { n with portFaults := min (n.portFaults + 1) 4294967295 })) ∧
    (∀ a w rest, angleOf? angle.toNat = some a → (s.recorder a).pendingWrites = w :: rest → w.slot = slot.toNat →
      let taken := fun faults : Nat → Nat => fun r : RecContext =>
        { r with pendingWrites := rest, liveEdge := some w.frame
                 counts := { r.counts with completions := min (r.counts.completions + 1) 4294967295
                                           writeFaults := faults r.counts.writeFaults } }
      (status = 0 →
        exec (.writeCompletion angle slot status) s =
          .next ((s.modPage w.page fun p => { p with writeHolds := p.writeHolds - 1 }).modRecorder a (taken id))) ∧
      (status ≠ 0 →
        exec (.writeCompletion angle slot status) s =
          .next (((s.modPage w.page fun p =>
              { p with writeHolds := p.writeHolds - 1, faulted := insertIndex (w.slot % 64) p.faulted }).modRecorder a
            (taken fun n => min (n + 1) 4294967295)).raiseAngleAlert (.writeFault a))))

/-- At a house frame the recorder halts the RECORDING angles on the saturated count and raises each silence count to at
most 3 (R16, R30, R31), the arbiter raises or resets the run of each cool-down and ages each pending claim (R149, R151),
and a link raises its loss or grace count (R163, R164). The last raise or lowering of a count ends what it counts (R31,
R149, R151, R172), and REPORT_TRANSMISSION_END frees the link for its next report (R171). That each row is such a last
raise is the model's choice (notes/assumptions/3.md), and so is when a grant resets a run (notes/assumptions/44.md). A
raised alert sets its timer to 60 and no other: an angle's alert (STARVED, MISSING, WRITE_FAULT, ABSENT) on every link, a
channel's (READ_FAULT, FIT_LIMITED, CUE_SKIPPED) on the link of its holder, or of station 0 while it is unclaimed, and
KEY_IGNORED on its station's (R172). -/
def Obligations.CountsRiseAndReachTheirEnds : Prop :=
  (∀ (s : State) (a : Angle),
    let u := s.recorderWork
    let r := s.recorder a
    let halts := 4294967295 ≤ s.timeBase.houseCount ∧ r.state = .recording
    let goes := r.present = true ∧ 2 ≤ r.silence
    let shut := fun p : Page => if p.state = .filling then { p with state := .sealed } else p
    u.recorder a =
      { r with
          state := if halts then .halted else r.state
          present := if goes then false else r.present
          silence := min 3 (r.silence + 1)
          counts := { r.counts with
            absences := if goes then min (r.counts.absences + 1) 4294967295 else r.counts.absences } } ∧
    u.pageList a = (if halts then (s.pageList a).map shut else s.pageList a) ∧
    (∀ k, (u.link k).alerts.absent.get a = if goes then 60 else (s.link k).alerts.absent.get a) ∧
    u = { s with recorders := u.recorders, pages := { s.pages with lists := u.pages.lists }, links := u.links } ∧
    ∀ k, u.link k = { s.link k with
      alerts := { (s.link k).alerts with absent := (u.link k).alerts.absent } }) ∧
  (∀ (s : State) (k : Station) (c : Chan),
    (s.coolDownRun k c = none → s.updateCoolDown k c = s) ∧
    ∀ run, s.coolDownRun k c = some run →
      (s.holder c ≠ none → s.updateCoolDown k c = s.setCoolDown k c (some 0)) ∧
      (s.holder c = none → run = 0 → s.updateCoolDown k c = s.setCoolDown k c (some 1)) ∧
      (s.holder c = none → 1 ≤ run → s.updateCoolDown k c = s.setCoolDown k c none)) ∧
  (∀ (s : State) (k : Station),
    (s.pendingClaim k = none → s.ageClaim k = s) ∧
    ∀ p, s.pendingClaim k = some p →
      (p.age < 49 → s.ageClaim k = s.setPendingClaim k (some { p with age := p.age + 1 })) ∧
      (49 ≤ p.age → s.ageClaim k =
        (s.setPendingClaim k none).answered k .claim .timeout [BitVec.ofNat 8 (p.channel.val + 1)])) ∧
  (∀ (s : State) (k : Station),
    ((s.link k).state = .off ∨ (s.link k).state = .down → s.watchLink k = s) ∧
    ((s.link k).state = .up → (s.link k).lossCount < 7 →
      s.watchLink k = s.modLink k fun l => { l with lossCount := l.lossCount + 1 }) ∧
    ((s.link k).state = .up → (s.link k).lossCount = 7 → s.resetHeld = false →
      exec (.linkLoss k) s = .next (s.watchLink k)) ∧
    ((s.link k).state = .lost → (s.link k).graceCount < 299 →
      s.watchLink k = s.modLink k fun l => { l with graceCount := l.graceCount + 1 }) ∧
    ((s.link k).state = .lost → (s.link k).graceCount = 299 → s.resetHeld = false →
      exec (.graceExpiry k) s = .next (s.inEvent fun u => u.watchLink k))) ∧
  (∀ (s : State) (alert : Alert),
    s.raiseAngleAlert alert = { s with links := s.links.map fun l => { l with alerts := l.alerts.set alert 60 } } ∧
    (∀ c, s.raiseChanAlert c alert =
      s.modLink ((s.holder c).getD 0) fun l => { l with alerts := l.alerts.set alert 60 }) ∧
    (∀ k, s.keyIgnored k = s.modLink k fun l => { l with alerts := l.alerts.set .keyIgnored 60 }) ∧
    ∀ (timers : AlertTimers) (n : Nat) (other : Alert),
      (timers.set alert n).get other = if other = alert then n else timers.get other) ∧
  ∀ s : State, s.resetHeld = false →
    (∀ a, (s.recorder a).present = true → (s.recorder a).silence = 2 →
      exec (.angleAbsent a) s =
        .next ((s.modRecorder a fun r =>
          { r with present := false, silence := 3
                   counts := { r.counts with absences := min (r.counts.absences + 1) 4294967295 } }).raiseAngleAlert
          (.absent a))) ∧
    (∀ k c, s.coolDownRun k c = some 1 → s.holder c = none →
      exec (.coolDownEnd k c) s = .next (s.setCoolDown k c none)) ∧
    (∀ k p, s.pendingClaim k = some p → p.age = 49 →
      exec (.claimTimeout k) s = .next ((s.setPendingClaim k none).answered k .claim .timeout [chanByte p.channel])) ∧
    (∀ k alert, (s.link k).alerts.get alert = 1 →
      exec (.alertTimerExpiry k alert) s = .next (s.modLink k fun l => { l with alerts := l.alerts.set alert 0 })) ∧
    (∀ k, exec (.reportTransmissionEnd k) s = .next (s.modLink k fun l => { l with tx := none }))

/-- REC_START and REC_STOP from station 0 (R14, R15, R177): what each does in each record state, with the angle and the
state after it in the result data. ANGLE_SET from station 0: refused in a state other than STOPPED, with a channel on the
angle, or with a held page; taken otherwise, with the pages to the tail of the pool, oldest first, and the quota clamped
(R17, R45, R176). An angle outside 1 to 8, and for ANGLE_SET a rate multiple outside 1 to 4, give BAD_ARGUMENT before any
other check (R176, R177). The empty result data of a refused ANGLE_SET and of BAD_ARGUMENT are deduced
(notes/assumptions/10.md). -/
def Obligations.RecordStatesAndAngleSet : Prop :=
   (∀ (s : State) (angle : Byte) (a : Angle), s.hears 0 → angleOf? angle.toNat = some a →
      let data := fun x : RecState => [angle, BitVec.ofNat 8 x.code]
      let u := s.counted 0
      ((s.recorder a).state = .stopped → s.timeBase.houseCount < 4294967295 →
        exec (.recStart 0 angle) s =
          .next ((u.modRecorder a fun r => { r with state := .recording, expected := none }).answered 0 .recStart .ok
            (data .recording))) ∧
      ((s.recorder a).state = .stopped → 4294967295 ≤ s.timeBase.houseCount →
        exec (.recStart 0 angle) s = .next (u.answered 0 .recStart .wrongState (data .stopped))) ∧
      ((s.recorder a).state = .recording →
        exec (.recStart 0 angle) s = .next (u.answered 0 .recStart .ok (data .recording)) ∧
        exec (.recStop 0 angle) s =
          .next (((u.modRecorder a fun r => { r with state := .stopped }).modPageList a fun l =>
            l.map fun p => if p.state = .filling then { p with state := .sealed } else p).answered 0 .recStop .ok
              (data .stopped))) ∧
      ((s.recorder a).state = .halted →
        exec (.recStart 0 angle) s = .next (u.answered 0 .recStart .wrongState (data .halted)) ∧
        exec (.recStop 0 angle) s = .next (u.answered 0 .recStop .wrongState (data .halted))) ∧
      ((s.recorder a).state = .stopped →
        exec (.recStop 0 angle) s = .next (u.answered 0 .recStop .ok (data .stopped)))) ∧
   (∀ (s : State) (angle m : Byte) (quota : BitVec 16) (a : Angle), s.hears 0 → angleOf? angle.toNat = some a →
      1 ≤ m.toNat → m.toNat ≤ 4 →
      let u := s.counted 0
      let inUse := ∃ c h, (s.chan c).head = some h ∧ h.angle = a
      let isHeld := ∃ p ∈ s.pageList a, 0 < p.clipHolds + p.anchorPins + p.fetchHolds + p.writeHolds
      let q := max 8 (min 16384 quota.toNat)
      ((s.recorder a).state ≠ .stopped ∨ inUse →
        exec (.angleSet 0 angle m quota) s = .next (u.answered 0 .angleSet .wrongState [])) ∧
      ((s.recorder a).state = .stopped → ¬ inUse → isHeld →
        exec (.angleSet 0 angle m quota) s = .next (u.answered 0 .angleSet .held [])) ∧
      ((s.recorder a).state = .stopped → ¬ inUse → ¬ isHeld →
        exec (.angleSet 0 angle m quota) s =
          .next (((({ u with pages := { u.pages with
              pool := u.pages.pool ++ (u.pageList a).map (·.number)
              scans := u.pages.scans.map fun sc => { sc with angles := sc.angles.filter fun x => x.angle != a } } } :
              State).modPageList a fun _ => []).modRecorder a fun r =>
                { r with rateMultiple := m.toNat, quota := q, expected := none, newest := none, liveEdge := none
                         pendingWrites := [] }).answered 0 .angleSet .ok
              [angle, m, BitVec.ofNat 8 (q / 256), BitVec.ofNat 8 q]))) ∧
   (∀ (s : State) (angle m : Byte) (quota : BitVec 16), s.hears 0 →
      let refused := fun (kind : CommandKind) (i : Instr) =>
        exec i s = .next ((s.counted 0).answered 0 kind .badArgument [])
      (angleOf? angle.toNat = none →
        refused .recStart (.recStart 0 angle) ∧ refused .recStop (.recStop 0 angle) ∧
        refused .angleSet (.angleSet 0 angle m quota)) ∧
      (m.toNat < 1 ∨ 4 < m.toNat → refused .angleSet (.angleSet 0 angle m quota)))

/-- A page supply seals the FILLING page; below the quota it draws the page at the head of the pool, else it reclaims the
oldest SEALED page without a hold that is not the newest, else it counts a starvation (R40, R41). The new page takes the
opening holds of the OPEN clips, and the in-point holds that move leave the page that was newest; the hold mark of a clip
is its in mark, or, while the scan of its re-mark is queued, the in mark it had before (R42, R67). That the queued scan
tells it is the model's choice (notes/assumptions/33.md). -/
def Obligations.SupplyDrawsOrReclaimsOrStarves : Prop :=
  ∀ (s : State) (a : Angle) (frame : Nat),
    (∀ c : Clip,
      let reMarks := fun sc : Scan => sc.clipId = c.id ∧ sc.serial = c.serial ∧ sc.rule = .lead
      ((∀ sc ∈ s.pages.scans, ¬ reMarks sc) → s.holdMark c = c.inMark) ∧
      ∀ before sc later, s.pages.scans = before ++ sc :: later → (∀ x ∈ before, ¬ reMarks x) → reMarks sc →
        (sc.kind = .remove → s.holdMark c = sc.start) ∧ ∀ e, sc.kind = .add → sc.stop = some e → s.holdMark c = e) ∧
    let l := (s.pageList a).map fun p => if p.state = .filling then { p with state := .sealed } else p
    let moved := (s.clips.clips.filter fun c =>
      c.state = .opened && c.angles.contains a && decide (frame ≤ s.holdMark c * (s.recorder a).rateMultiple)).length
    let kept := l.dropLast ++ (l.getLast?.map fun p => { p with clipHolds := p.clipHolds - moved }).toList
    let opened := fun n : Nat =>
      { number := n, state := .filling, firstFrame := frame, count := 0, faulted := [],
        clipHolds := s.clips.openCounts.get a, anchorPins := 0, fetchHolds := 0, writeHolds := 0 : Page }
    let spare := fun p : Page => p.state = .sealed ∧ p.clipHolds + p.anchorPins + p.fetchHolds + p.writeHolds = 0
    let noDraw := (s.recorder a).quota ≤ (s.pageList a).length ∨ s.pages.pool = []
    (∀ n rest, (s.pageList a).length < (s.recorder a).quota → s.pages.pool = n :: rest →
      s.supplyPage a frame =
        (({ s with pages := { s.pages with pool := rest } } : State).modPageList a fun _ => kept ++ [opened n],
          some n)) ∧
    (∀ older p newer, noDraw → l = older ++ p :: newer → newer ≠ [] → spare p → (∀ q ∈ older, ¬ spare q) →
      s.supplyPage a frame =
        (({ s with pages := { s.pages with
            reclaimed := vmod s.pages.reclaimed a fun n => min (n + 1) 4294967295 } } : State).modPageList a
          fun _ => (kept.filter fun q => q.number != p.number) ++ [opened p.number], some p.number)) ∧
    (noDraw → (∀ p ∈ l.dropLast, ¬ spare p) →
      s.supplyPage a frame =
        (({ s with pages := { s.pages with
            starvations := vmod s.pages.starvations a fun n => min (n + 1) 4294967295 } } : State).modPageList a
          fun _ => l, none))

/-! ### The page store -/

/-- Each of the 16,384 pages stays in the free pool or in exactly one record list, and never in both, at every step from
every state in which it is so (R38). -/
def Obligations.PagesStayPlaced : Prop :=
  ∀ s t : State, s.PagesPlaced → step s = .next t → t.PagesPlaced

/-- On a record list in ascending order, a scan visits on an angle exactly the pages of its visit rule (R52, R54). That the
lower page of an open-ended COVER is found among the pages within the bound is deduced (notes/assumptions/13.md). -/
def Obligations.ScansVisitThePagesOfTheirRule : Prop :=
  ∀ (l : List Page) (m : Nat) (sc : Scan) (sa : ScanAngle) (n : Nat),
    l.Pairwise (fun p q => p.firstFrame < q.firstFrame) → sa.progress = none → l.length ≤ n →
    let lo := sc.start * m
    (∀ e, sc.rule = .cover → sc.stop = some e →
      scanVisits l m sc n sa =
        (lowerPage l lo).toList ++ l.filter fun p => lo < p.firstFrame && decide (p.firstFrame ≤ (e + 1) * m - 1)) ∧
    (∀ b, sc.rule = .cover → sc.stop = none → sa.bound = some b →
      scanVisits l m sc n sa =
        (lowerPage (l.filter fun p => p.firstFrame ≤ b) lo).toList ++
          l.filter fun p => lo < p.firstFrame && decide (p.firstFrame ≤ b)) ∧
    (∀ e q, sc.rule = .lead → sc.stop = some e → lowerPage l (e * m) = some q →
      scanVisits l m sc n sa =
        if (lowerPage l lo).map (·.number) = some q.number then []
        else (lowerPage l lo).toList ++ l.filter fun p => lo < p.firstFrame && decide (p.firstFrame < q.firstFrame)) ∧
    (∀ e, sc.rule = .lead → sc.stop = some e → lowerPage l (e * m) = none → scanVisits l m sc n sa = []) ∧
    (∀ e, sc.rule = .tail → sc.stop = some e →
      scanVisits l m sc n sa =
        l.filter fun p => decide (lo ≤ p.firstFrame) && decide (p.firstFrame ≤ (e + 1) * m - 1)) ∧
    (∀ b, sc.rule = .tail → sc.stop = none → sa.bound = some b →
      scanVisits l m sc n sa = l.filter fun p => decide (lo ≤ p.firstFrame) && decide (p.firstFrame ≤ b)) ∧
    (sc.rule ≠ .lead → sc.stop = none → sa.bound = none → scanVisits l m sc n sa = [])

/-- A hold scan joins the tail of the scan queue with the bound and the progress of each angle, and its head holds are taken
at once; the clip's scans pending rise by 1 (R53, R63). A scan at the head of the queue leaves it and completes when no
angle has a page to visit left, and the next one starts (R54). SCAN_VISIT: the running scan visits the next page of the
first angle that has one, which takes or gives up one clip hold, or counts a mismatch at clip part 0; with an empty queue
nothing changes (R49, R54). The completion of a clip's last pending scan makes a CLOSING clip CLOSED and removes a
DELETING one, and raises the generation; before the last one only the scans pending fall (R63, R75). In which event a
scan without a page completes is deduced (notes/assumptions/12.md). -/
def Obligations.ScansAreQueuedVisitedAndCompleted : Prop :=
   (∀ (s : State) (c : Clip) (kind : ScanKind) (rule : VisitRule) (start : Nat) (stop : Option Nat) (atOnce : Bool),
      let head := fun a : Angle =>
        (lowerPage (s.pageList a) (start * (s.recorder a).rateMultiple)).or (s.pageList a).head?
      let scan : Scan :=
        { clipId := c.id, serial := c.serial, kind := kind, rule := rule, start := start, stop := stop
          headAtOnce := atOnce
          angles := c.angles.map fun a =>
            { angle := a
              bound := if stop = none then (s.pageList a).getLast?.map (·.firstFrame) else none
              progress := if atOnce then (head a).map (·.firstFrame) else none } }
      let held := if atOnce then
          c.angles.foldl (fun t a => t.modPage? ((head a).map (·.number)) fun p =>
            { p with clipHolds := p.clipHolds + 1 }) s
        else s
      s.queueScan c kind rule start stop atOnce =
        ({ held with pages := { held.pages with scans := s.pages.scans ++ [scan] } } : State).modClip c.id c.serial
          fun d => { d with scansPending := d.scansPending + 1 }) ∧
   (∀ s : State,
      (s.pages.scans = [] → s.settleScans = s) ∧
      ∀ sc rest, s.pages.scans = sc :: rest →
        let left := sc.angles.dropWhile fun sa => (s.nextVisit sc sa).isNone
        (left ≠ [] →
          s.settleScans = { s with pages := { s.pages with scans := { sc with angles := left } :: rest } }) ∧
        (left = [] →
          s.settleScans =
            (({ s with pages := { s.pages with scans := rest } } : State).scanCompleted sc.clipId sc.serial).settleScans) ∧
        ∀ sa n, scanVisits (s.pageList sa.angle) (s.recorder sa.angle).rateMultiple sc (n + 1) sa =
          match s.nextVisit sc sa with
          | some (p, g) =>
            p :: scanVisits (s.pageList sa.angle) (s.recorder sa.angle).rateMultiple sc n { sa with progress := some g }
          | none => []) ∧
   (∀ s : State, s.resetHeld = false →
      let r := s.settleScans
      (s.pages.scans = [] → s.clips.raised = false → exec .scanVisit s = .next s) ∧
      (r.pages.scans = [] → exec .scanVisit s = .next (s.inEvent fun u => u.settleScans)) ∧
      ∀ sc rest sa more p g, r.pages.scans = sc :: rest → sc.angles = sa :: more → r.nextVisit sc sa = some (p, g) →
        let on := fun u : State =>
          ({ u.settleScans with pages := { u.settleScans.pages with
              scans := { sc with angles := { sa with progress := some g } :: more } :: rest } } : State)
        (sc.kind = .add →
          exec .scanVisit s =
            .next (s.inEvent fun u =>
              ((on u).modPage p.number fun q => { q with clipHolds := q.clipHolds + 1 }).settleScans)) ∧
        (sc.kind = .remove → 0 < p.clipHolds →
          exec .scanVisit s =
            .next (s.inEvent fun u =>
              ((on u).modPage p.number fun q => { q with clipHolds := q.clipHolds - 1 }).settleScans)) ∧
        (sc.kind = .remove → p.clipHolds = 0 →
          exec .scanVisit s =
            .next (s.inEvent fun u =>
              ({ on u with pages := { (on u).pages with
                  mismatches := min (u.pages.mismatches + 1) 4294967295 } } : State).settleScans))) ∧
   (∀ (s : State) (id serial : Nat),
      (s.findClip id serial = none → s.scanCompleted id serial = s) ∧
      ∀ c, s.findClip id serial = some c →
        (1 < c.scansPending →
          s.scanCompleted id serial = s.modClip id serial fun d => { d with scansPending := d.scansPending - 1 }) ∧
        (c.scansPending = 1 → c.state = .closing →
          s.scanCompleted id serial =
            (s.modClip id serial fun d => { d with scansPending := 0, state := .closed }).raiseGeneration) ∧
        (c.scansPending = 1 → c.state = .deleting →
          s.scanCompleted id serial = (s.dropClip id serial).raiseGeneration) ∧
        (c.scansPending = 1 → c.state ≠ .closing → c.state ≠ .deleting →
          s.scanCompleted id serial = s.modClip id serial fun d => { d with scansPending := 0 }))

/-! ### The clip table -/

/-- MARK_IN of a station without an OPEN clip creates one at its mark, trimmed to material, with its open counts, head
holds and ADD scan; a full table gives TABLE_FULL (R61, R65, R66, R81). Of a station that owns an OPEN clip it re-marks
it, with the LEAD scan between the old and the new in; a pending scan gives BUSY, and the same mark changes nothing (R67,
R81). The empty result data of a refused MARK_IN are deduced (notes/assumptions/10.md), and 1 for trimmed is the model's
choice (notes/assumptions/49.md). -/
def Obligations.MarkInCreatesOrReMarks : Prop :=
   (∀ (s : State) (stn : Station), s.hears stn → s.openClip stn = none →
      (s.freeId = none →
        exec (.markIn stn) s = .next (s.inEvent fun u => (u.counted stn).answered stn .markIn .tableFull [])) ∧
      ∀ id, s.freeId = some id →
        let angles := (s.setting stn).markSet
        let mark := s.trimMark angles (s.mark stn)
        let c : Clip :=
          { id := id, serial := s.freeSerial, state := .opened, owner := stn, angles := angles, inMark := mark.1,
            outMark := none, isProtected := true, hero := angles.head?.getD 0, label := [], tags := [], useCount := 0,
            scansPending := 0, trimmed := mark.2 }
        exec (.markIn stn) s =
          .next (s.inEvent fun u =>
            (((((u.counted stn).addClip c).modOpenCounts angles (· + 1)).queueScan c .add .cover mark.1 none
              true).settleScans).answered stn .markIn .ok
                (beBytes 2 id ++ beBytes 2 s.freeSerial ++ beBytes 4 mark.1 ++ [if mark.2 then 1 else 0] ++ [0, 0, 0, 0]))) ∧
   (∀ (s : State) (stn : Station) (c : Clip), s.hears stn → s.openClip stn = some c →
      let h := s.mark stn
      let data := fun (x : Nat) (trimmed : Bool) =>
        beBytes 2 c.id ++ beBytes 2 c.serial ++ beBytes 4 x ++ [if trimmed then 1 else 0] ++ beBytes 4 (c.outMark.getD 0)
      let moved := fun u : State =>
        ((u.counted stn).modClip c.id c.serial fun d => { d with inMark := h, trimmed := false }).raiseGeneration
      (0 < c.scansPending →
        exec (.markIn stn) s = .next (s.inEvent fun u => (u.counted stn).answered stn .markIn .busy [])) ∧
      (c.scansPending = 0 → h = c.inMark →
        exec (.markIn stn) s =
          .next (s.inEvent fun u => (u.counted stn).answered stn .markIn .ok (data h c.trimmed))) ∧
      (c.scansPending = 0 → h < c.inMark →
        exec (.markIn stn) s =
          .next (s.inEvent fun u =>
            ((moved u).queueScan c .add .lead h (some c.inMark) false).settleScans.answered stn .markIn .ok
              (data h false))) ∧
      (c.scansPending = 0 → c.inMark < h →
        exec (.markIn stn) s =
          .next (s.inEvent fun u =>
            ((moved u).queueScan c .remove .lead c.inMark (some h) false).settleScans.answered stn .markIn .ok
              (data h false))))

/-- MARK_OUT closes the station's OPEN clip at its mark: at or above in it is the out mark; below in the marks swap, or
with a scan pending the clip is one house frame long; the length is clamped, and the scans of R69 are queued (R68, R69,
R81). Of a station without an OPEN clip it creates a CLOSING clip of the preroll length that ends at the mark; a full
table gives TABLE_FULL (R61, R70, R81). The empty result data of TABLE_FULL are deduced (notes/assumptions/10.md), and 1
for trimmed is the model's choice (notes/assumptions/49.md). -/
def Obligations.MarkOutClosesOrCreates : Prop :=
   (∀ (s : State) (stn : Station) (c : Clip), s.hears stn → s.openClip stn = some c →
      let mark := s.mark stn
      let closed := fun (inMark outMark : Nat) (scan : State → State) =>
        exec (.markOut stn) s =
          .next (s.inEvent fun u =>
            ((scan (((u.counted stn).modClip c.id c.serial fun d =>
                { d with state := .closing, inMark := inMark, outMark := some outMark }).raiseGeneration.modOpenCounts
              c.angles (· - 1))).queueScan c .remove .tail (outMark + 1) none false).settleScans.answered stn .markOut .ok
                (beBytes 2 c.id ++ beBytes 2 c.serial ++ beBytes 4 inMark ++ [if c.trimmed then 1 else 0] ++
                  beBytes 4 outMark))
      (c.inMark ≤ mark → closed c.inMark (min mark (c.inMark + 1048574)) id) ∧
      (mark < c.inMark → c.scansPending = 0 →
        closed mark (min c.inMark (mark + 1048574)) fun t => t.queueScan c .add .lead mark (some c.inMark) false) ∧
      (mark < c.inMark → 0 < c.scansPending → closed c.inMark c.inMark id)) ∧
   (∀ (s : State) (stn : Station), s.hears stn → s.openClip stn = none →
      (s.freeId = none →
        exec (.markOut stn) s = .next (s.inEvent fun u => (u.counted stn).answered stn .markOut .tableFull [])) ∧
      ∀ id, s.freeId = some id →
        let angles := (s.setting stn).markSet
        let out := s.mark stn
        let inMark := out + 1 - (s.setting stn).preroll
        let c : Clip :=
          { id := id, serial := s.freeSerial, state := .closing, owner := stn, angles := angles, inMark := inMark,
            outMark := some out, isProtected := true, hero := angles.head?.getD 0, label := [], tags := [],
            useCount := 0, scansPending := 0, trimmed := false }
        exec (.markOut stn) s =
          .next (s.inEvent fun u =>
            (((u.counted stn).addClip c).queueScan c .add .cover inMark (some out) false).settleScans.answered stn
              .markOut .ok
              (beBytes 2 id ++ beBytes 2 s.freeSerial ++ beBytes 4 inMark ++ [0] ++ beBytes 4 out)))

/-- The mark of a station (R64), and the in mark of a created clip: a mark with material on some angle stands; else it
moves to the house frame of the least frame held above it, and is trimmed; else it stands (R65). That a follower of a LIVE
leader marks at the newest complete house frame too is deduced (notes/assumptions/19.md). -/
def Obligations.MarksAreTrimmedToMaterial : Prop :=
  ∀ s : State,
    (∀ stn, (s.link stn).selected = none → s.mark stn = s.timeBase.houseCount - 1) ∧
    (∀ stn c, (s.link stn).selected = some c →
      ((s.chan c).head = none → s.mark stn = s.timeBase.houseCount - 1) ∧
      ∀ h, (s.chan c).head = some h →
        s.mark stn = if h.mode = .live then s.timeBase.houseCount - 1 else h.position / 720) ∧
    ∀ (angles : List Angle) (h : Nat),
      (∀ a ∈ angles, 0 < (s.recorder a).rateMultiple) →
      (∀ a ∈ angles, (s.pageList a).Pairwise (fun p q => p.firstFrame + p.count ≤ q.firstFrame) ∧
        ∀ p ∈ s.pageList a, 0 < p.count) →
      let heldFrame := fun (a : Angle) (n : Nat) => ∃ p ∈ s.pageList a, p.firstFrame ≤ n ∧ n < p.firstFrame + p.count
      let m := fun a : Angle => (s.recorder a).rateMultiple
      ((∃ a ∈ angles, ∃ n, heldFrame a n ∧ h * m a ≤ n ∧ n ≤ (h + 1) * m a - 1) → s.trimMark angles h = (h, false)) ∧
      ((∀ a ∈ angles, ∀ n, heldFrame a n → n < h * m a) → s.trimMark angles h = (h, false)) ∧
      ∀ a n, a ∈ angles → heldFrame a n → (h + 1) * m a ≤ n →
        (∀ b ∈ angles, ∀ k, heldFrame b k → h * m b ≤ k → (h + 1) * m b ≤ k ∧ n / m a ≤ k / m b) →
        s.trimMark angles h = (n / m a, true)

/-- A new clip takes the lowest free id from 1 to 512, and the serial counter's value or the next serial, from 65,535 to 1,
that no present clip has; joining the table moves the counter past it (R61). The table generation rises by 1, from 65,535
to 0, at the first change of a clip in an event and at no later one of that event (R62); the mark that an event has raised
it is the model's own (notes/assumptions/11.md). -/
def Obligations.IdsSerialsAndGenerations : Prop :=
  (∀ s : State,
     (∀ i, s.freeId = some i ↔
       1 ≤ i ∧ i ≤ 512 ∧ (∀ c ∈ s.clips.clips, c.id ≠ i) ∧ ∀ j, 1 ≤ j → j < i → ∃ c ∈ s.clips.clips, c.id = j) ∧
     (1 ≤ s.clips.serialCounter → s.clips.serialCounter ≤ 65535 →
       (∃ x, 1 ≤ x ∧ x ≤ 65535 ∧ ∀ c ∈ s.clips.clips, c.serial ≠ x) →
       let at' := fun k => (s.clips.serialCounter - 1 + k) % 65535 + 1
       ∃ k, s.freeSerial = at' k ∧ (∀ c ∈ s.clips.clips, c.serial ≠ s.freeSerial) ∧
         ∀ j, j < k → ∃ c ∈ s.clips.clips, c.serial = at' j) ∧
     ∀ c : Clip, (s.addClip c).clips.serialCounter = if c.serial = 65535 then 1 else c.serial + 1) ∧
  (∀ s : State,
    (s.clips.raised = false → s.raiseGeneration =
      { s with clips := { s.clips with generation := (s.clips.generation + 1) % 65536, raised := true } }) ∧
    (s.clips.raised = true → s.raiseGeneration = s)) ∧
  ∀ (s : State) (f : State → State),
    let t := f { s with clips := { s.clips with raised := false } }
    s.inEvent f = { t with clips := { t.clips with raised := false } }

/-- Every command that is one event raises the table generation at most once, and does raise it when a clip joins or
leaves the table or one of its fields changes, other than its use count and its scans pending (R62). DESK_FRAME and
INTERBYTE_TIMEOUT may take several frames; an accepted frame is one event with all it starts, and so a house frame that
its command gives at once is part of it (the model's choice, notes/assumptions/8.md). -/
def Obligations.GenerationRisesOnceInAnEvent : Prop :=
  let fields := fun s : State => s.clips.clips.map fun c => { c with useCount := 0, scansPending := 0 }
  let tells := fun s t : State =>
    (t.clips.generation = s.clips.generation ∨ t.clips.generation = (s.clips.generation + 1) % 65536) ∧
      (fields t ≠ fields s → t.clips.generation = (s.clips.generation + 1) % 65536)
  (∀ (i : Instr) (s t : State), s.clips.raised = false → exec i s = .next t →
    (∀ moment, i ≠ .hardwareReset moment) → (∀ k bytes moment order, i ≠ .deskFrame k bytes moment order) →
    (∀ k moment order, i ≠ .interbyteTimeout k moment order) → tells s t) ∧
  ∀ (s : State) (k : Station) (moment : Nat) (order : List Reaction) (f : DeskFrame),
    tells s (s.inEvent fun u => u.acceptFrame k moment order f)

/-- PROTECT and UNPROTECT of a clip: WRONG_STATE, CLIP_BUSY, OK without change, or the new protection with its COVER
scan over in to out (R72). DELETE, by the state of the clip: WRONG_STATE, CLIP_BUSY, the deletion of an OPEN clip over
its open end, RETIRING while it is in use, the deletion of a protected clip over in to out, or the removal of an
unprotected one (R73 to R75). -/
def Obligations.ProtectionAndDeletion : Prop :=
   (∀ (s : State) (stn : Station) (id serial : BitVec 16) (c : Clip) (wanted : Bool),
      s.hears stn → s.ownsClip stn id serial c →
      let i : Instr := if wanted then .protect stn id serial else .unprotect stn id serial
      let kind : CommandKind := if wanted then .protect else .unprotect
      let busy := 0 < c.scansPending ∨ c.state = .closing
      (c.state = .opened ∨ c.state = .retiring ∨ c.state = .deleting →
        exec i s = .next (s.inEvent fun u => (u.counted stn).answered stn kind .wrongState [])) ∧
      (c.state = .closed ∨ c.state = .closing → busy →
        exec i s = .next (s.inEvent fun u => (u.counted stn).answered stn kind .clipBusy [])) ∧
      (c.state = .closed → ¬ busy → c.isProtected = wanted →
        exec i s = .next (s.inEvent fun u => (u.counted stn).answered stn kind .ok [])) ∧
      (c.state = .closed → ¬ busy → c.isProtected ≠ wanted →
        exec i s =
          .next (s.inEvent fun u =>
            (((u.counted stn).modClip c.id c.serial fun d => { d with isProtected := wanted }).raiseGeneration.queueScan c
              (if wanted then .add else .remove) .cover c.inMark c.outMark false).settleScans.answered stn kind .ok []))) ∧
   (∀ (s : State) (stn : Station) (id serial : BitVec 16) (c : Clip), s.hears stn → s.ownsClip stn id serial c →
      let busy := 0 < c.scansPending ∨ c.state = .closing
      let deleting := fun u : State =>
        ((u.modClip c.id c.serial fun d => { d with state := .deleting }).raiseGeneration.queueScan c .remove .cover
          c.inMark c.outMark false).settleScans
      let answer := fun (r : Result) (f : State → State) =>
        exec (.delete stn id serial) s = .next (s.inEvent fun u => (f (u.counted stn)).answered stn .delete r [])
      (c.state = .retiring ∨ c.state = .deleting → answer .wrongState fun u => u) ∧
      (c.state ≠ .retiring → c.state ≠ .deleting → busy → answer .clipBusy fun u => u) ∧
      (c.state = .opened → ¬ busy → answer .ok fun u => deleting (u.modOpenCounts c.angles (· - 1))) ∧
      (c.state = .closed → ¬ busy → 0 < c.useCount →
        answer .ok fun u => (u.modClip c.id c.serial fun d => { d with state := .retiring }).raiseGeneration) ∧
      (c.state = .closed → ¬ busy → c.useCount = 0 → c.isProtected = true → answer .ok deleting) ∧
      (c.state = .closed → ¬ busy → c.useCount = 0 → c.isProtected = false →
        answer .ok fun u => (u.dropClip c.id c.serial).raiseGeneration))

/-- LABEL, TAG_ADD, TAG_REMOVE and HERO of a clip that is neither RETIRING nor DELETING change that one field, and
raise the generation when it changes; what they refuse, they leave alone (R62, R76 to R78). A command on a named clip
gives NO_CLIP when no present clip has the id with the serial, and NOT_OWNER to a station that is neither the owner nor
station 0; nothing else changes (R79). -/
def Obligations.ClipFieldsAreCheckedAndEdited : Prop :=
   (∀ (s : State) (stn : Station) (id serial : BitVec 16) (c : Clip), s.hears stn → s.ownsClip stn id serial c →
      let edited := fun (kind : CommandKind) (i : Instr) (d : Clip) =>
        (d ≠ c → exec i s =
          .next (s.inEvent fun u =>
            (((u.counted stn).modClip c.id c.serial fun _ => d).raiseGeneration).answered stn kind .ok [])) ∧
        (d = c → exec i s = .next (s.inEvent fun u => (u.counted stn).answered stn kind .ok []))
      let refused := fun (kind : CommandKind) (i : Instr) (r : Result) =>
        exec i s = .next (s.inEvent fun u => (u.counted stn).answered stn kind r [])
      let leaving := c.state = .retiring ∨ c.state = .deleting
      (∀ text : List (BitVec 7), text.length ≤ 25 →
        let printable := text.length ≤ 24 ∧ ∀ x ∈ text, 32 ≤ x.toNat ∧ x.toNat ≤ 126
        (leaving → refused .label (.label stn id serial text) .wrongState) ∧
        (¬ leaving → ¬ printable → refused .label (.label stn id serial text) .badArgument) ∧
        (¬ leaving → printable → edited .label (.label stn id serial text) { c with label := text })) ∧
      (∀ tag : Byte,
        (leaving → refused .tagAdd (.tagAdd stn id serial tag) .wrongState ∧
          refused .tagRemove (.tagRemove stn id serial tag) .wrongState) ∧
        (¬ leaving → tag = 0 → refused .tagAdd (.tagAdd stn id serial tag) .badArgument ∧
          refused .tagRemove (.tagRemove stn id serial tag) .badArgument) ∧
        (¬ leaving → tag ≠ 0 →
          (tag ∈ c.tags → refused .tagAdd (.tagAdd stn id serial tag) .ok) ∧
          (tag ∉ c.tags → 4 ≤ c.tags.length → refused .tagAdd (.tagAdd stn id serial tag) .listFull) ∧
          (tag ∉ c.tags → c.tags.length < 4 →
            edited .tagAdd (.tagAdd stn id serial tag) { c with tags := c.tags ++ [tag] }) ∧
          edited .tagRemove (.tagRemove stn id serial tag) { c with tags := c.tags.filter fun t => t != tag })) ∧
      ∀ angle : Byte,
        (leaving → refused .hero (.hero stn id serial angle) .wrongState) ∧
        (¬ leaving → (∀ a, angleOf? angle.toNat = some a → a ∉ c.angles) →
          refused .hero (.hero stn id serial angle) .badArgument) ∧
        (∀ a, ¬ leaving → angleOf? angle.toNat = some a → a ∈ c.angles →
          edited .hero (.hero stn id serial angle) { c with hero := a })) ∧
   (∀ (s : State) (stn : Station) (id serial : BitVec 16) (kind : CommandKind) (i : Instr), s.hears stn →
      ((kind, i) ∈ [(.protect, .protect stn id serial), (.unprotect, .unprotect stn id serial),
          (.delete, Instr.delete stn id serial)] ∨
        (∃ text, text.length ≤ 25 ∧ (kind, i) = (.label, .label stn id serial text)) ∨
        (∃ tag, (kind, i) ∈ [(.tagAdd, .tagAdd stn id serial tag), (.tagRemove, .tagRemove stn id serial tag),
          (.hero, Instr.hero stn id serial tag)])) →
      (s.findClip id.toNat serial.toNat = none →
        exec i s = .next (s.inEvent fun u => (u.counted stn).answered stn kind .noClip [])) ∧
      ∀ c, s.findClip id.toNat serial.toNat = some c → stn ≠ c.owner → stn ≠ 0 →
        exec i s = .next (s.inEvent fun u => (u.counted stn).answered stn kind .notOwner []))

/-- A channel that enters or leaves CLIP moves the clip's use count by 1; a RETIRING clip that falls to 0 is deleted, with
its REMOVE scan when it is protected, at once when it is not (R74, R80, R86). -/
def Obligations.UseCountsFollowTheChannels : Prop :=
  ∀ (s : State) (c : Chan) (h : Playhead) (ctx : ClipContext) (clip : Clip),
    (s.chan c).head = some h → h.mode = .clip ctx → s.findClip ctx.clipId ctx.serial = some clip →
    let left := (s.modChan c fun ch => { ch with staged := false }).modClip clip.id clip.serial fun d =>
      { d with useCount := d.useCount - 1 }
    (clip.state ≠ .retiring ∨ 1 < clip.useCount → s.leaveClip c = left) ∧
    (clip.state = .retiring → clip.useCount = 1 → clip.isProtected = false →
      s.leaveClip c = (left.dropClip clip.id clip.serial).raiseGeneration) ∧
    (clip.state = .retiring → clip.useCount = 1 → clip.isProtected = true →
      s.leaveClip c =
        ((left.modClip clip.id clip.serial fun d => { d with state := .deleting }).raiseGeneration.queueScan clip .remove
          .cover clip.inMark clip.outMark false).settleScans) ∧
    s.addUse clip.id clip.serial = s.modClip clip.id clip.serial fun d => { d with useCount := d.useCount + 1 }

/-! ### Replay channels -/

/-- The span of an angle runs from the first frame of its oldest page to its live edge, and there is none without a page,
without a live edge, or with the live edge below that frame (R51). A playhead that is written moves its anchor pin to the
page that holds its anchor frame or stands before its gap: the old page has one pin fewer and the new page one more (R47,
R107). A write, and a change of state or speed that does not move the playhead, move each follower of a gang leader to the
leader's position on the follower's own angle (R109); that they do so where the leader's position, angle and state stay as
they were is the model's choice (notes/assumptions/40.md), and so is the clamp indication no of a follower of a LIVE
leader (notes/assumptions/41.md). What a follower on an angle without a span does is the model's
choice, in states that no run reaches (notes/assumptions/20.md). -/
def Obligations.PlayheadsMoveTheirPinsAndFollowers : Prop :=
  (∀ (s : State) (a : Angle),
    let fs := 720 / (s.recorder a).rateMultiple
    (∀ p later e, s.pageList a = p :: later → (s.recorder a).liveEdge = some e →
      (p.firstFrame ≤ e → s.span a = some (p.firstFrame * fs, e * fs)) ∧ (e < p.firstFrame → s.span a = none)) ∧
    (s.pageList a = [] ∨ (s.recorder a).liveEdge = none → s.span a = none)) ∧
  ∀ (s : State) (c : Chan) (h : Playhead) (g : Playhead → Playhead),
    let anchor := fun x : Playhead => (lowerPage (s.pageList x.angle) (x.position / s.frameSpan x.angle)).map (·.number)
    let followed := fun h hf : Playhead =>
      let moved := match h.mode, s.span hf.angle with
        | .live, some (_, pmax) => (pmax, false)
        | .live, none => (hf.position, false)
        | _, some (pmin, pmax) => (max pmin (min pmax h.position), decide (h.position < pmin ∨ pmax < h.position))
        | _, none => (h.position, false)
      let x := { hf with
        mode := (match h.mode with
          | .clip _ => .follow
          | m => m)
        speed := h.speed, position := moved.1, clamp := moved.2 }
      { x with anchor := anchor x }
    (∀ old : Option Nat, s.movePin old old = s) ∧
    (∀ old new : Option Nat, old ≠ new →
      s.movePin old new = { s with pages := { s.pages with lists := s.pages.lists.map fun l => l.map fun p =>
        { p with anchorPins :=
            if old = some p.number then p.anchorPins - 1
            else if new = some p.number then p.anchorPins + 1
            else p.anchorPins } } }) ∧
    (s.writeHead c h =
      (s.movePin ((s.chan c).head.bind (·.anchor)) (anchor h)).modChan c fun ch =>
        { ch with head := some { h with anchor := anchor h } }) ∧
    (s.followersOf c = [] →
      s.place c h = s.writeHead c h ∧ s.steer c g = s.modChan c fun ch => { ch with head := ch.head.map g }) ∧
    (c ∉ s.followersOf c →
      ((s.place c h).chan c).head = some { h with anchor := anchor h } ∧
      (s.steer c g).chan c = { s.chan c with head := (s.chan c).head.map g }) ∧
    (∀ d, d ≠ c → d ∉ s.followersOf c → (s.place c h).chan d = s.chan d ∧ (s.steer c g).chan d = s.chan d) ∧
    ∀ f hf, c ∉ s.followersOf c → (s.followersOf c).Nodup → f ∈ s.followersOf c → (s.chan f).head = some hf →
      (∀ pmin pmax, s.span hf.angle = some (pmin, pmax) → pmin ≤ pmax) →
      ((s.place c h).chan f).head = some (followed h hf) ∧
      ∀ old, (s.chan c).head = some old → ((s.steer c g).chan f).head = some (followed (g old) hf)

/-- PLAY outside CLIP acts on the channel or its leader: PLAY at the commanded speed within ±2,880, or at the play preset,
with the position kept; with the lever engaged it disarms it; on IDLE it gives WRONG_STATE (R88, R93, R99). In CLIP it
runs the clip: with a speed or a duration the speed mode is set up afresh, else it is kept, and a running channel is not
changed; with the lever engaged on it, it disarms the lever (R93, R113, R115, R119). The speed field of a running channel
after a new duration is the model's choice (notes/assumptions/42.md). -/
def Obligations.PlayRunsTheChannelOrTheClip : Prop :=
   (∀ (s : State) (stn : Station) (channel : Byte) (pace : Pace) (c l : Chan), s.hears stn →
      chanOf? channel.toNat = some c → s.drives stn c → s.leaderOf c = l →
      ((s.chan l).head = none →
        exec (.play stn channel pace) s = .next ((s.counted stn).answered stn .play .wrongState [])) ∧
      ∀ h, (s.chan l).head = some h → (∀ ctx, h.mode ≠ .clip ctx) →
        let speed := match pace with
          | .speed v => max (-2880) (min 2880 v.toInt)
          | _ => (s.setting stn).playPreset
        let armed := if (s.link stn).engaged = true ∧ s.leverTarget stn = some l then
            (s.counted stn).modLink stn fun k => { k with armed := false }
          else s.counted stn
        exec (.play stn channel pace) s =
          .next ((armed.steer l fun h => { h with mode := .play, speed := speed }).answered stn .play .ok [])) ∧
   (∀ (s : State) (stn : Station) (channel : Byte) (c l : Chan) (h : Playhead) (ctx : ClipContext) (clip : Clip),
      s.hears stn → chanOf? channel.toNat = some c → s.drives stn c → s.leaderOf c = l →
      (s.chan l).head = some h → h.mode = .clip ctx → s.findClip ctx.clipId ctx.serial = some clip →
      let grains := (clip.outMark.getD clip.inMark + 1 - clip.inMark) * 720
      let base := fun m : SpeedMode => match m with
        | .fixed v => v
        | .fit _ q _ _ => (q : Int)
      let answer := fun (pace : Pace) (f : State → State) =>
        let armed := if (s.link stn).engaged = true ∧ s.leverTarget stn = some l then
            (s.counted stn).modLink stn fun k => { k with armed := false }
          else s.counted stn
        exec (.play stn channel pace) s = .next ((f armed).answered stn .play .ok [])
      let runs := fun (m : SpeedMode) (t : State) => t.steer l fun h =>
        { h with mode := .clip { ctx with running := true, endReached := false, mode := m }, speed := base m }
      (ctx.running = true → answer .none fun u => u) ∧
      (ctx.running = false → answer .none (runs ctx.mode)) ∧
      (∀ v : BitVec 16, answer (.speed v) (runs (.fixed (max (-2880) (min 2880 v.toInt))))) ∧
      ∀ v : BitVec 16,
        let d := max 1 v.toNat
        (grains / d ≤ 2880 → answer (.duration v) (runs (.fit d (grains / d) (grains % d) 0))) ∧
        (2880 < grains / d →
          answer (.duration v) fun u => runs (.fit d 2880 0 0)
            ((u.modChanCounts l fun n => { n with fitLimited := min (n.fitLimited + 1) 4294967295 }).raiseChanAlert l
              (.fitLimited l))))

/-- PAUSE acts on the channel or its leader: PLAY, SHUTTLE and LIVE become PAUSED with speed 0, a running clip stops in
CLIP, anything else that is not IDLE stands (R88, R100, R120). LIVE acts on the channel or its leader: it leaves CLIP,
and stands LIVE at Pmax with speed 720 and no clamp (R86, R88, R101). On IDLE both give WRONG_STATE. BLACK sets the black
flag to yes and UNBLACK to no, in any state including IDLE and whatever the flag was; both are answered OK, and nothing
else changes (R106). -/
def Obligations.PauseLiveAndBlack : Prop :=
   (∀ (s : State) (stn : Station) (channel : Byte) (c l : Chan), s.hears stn →
      chanOf? channel.toNat = some c → s.drives stn c → s.leaderOf c = l →
      let answer := fun (r : Result) (f : State → State) =>
        exec (.pause stn channel) s = .next ((f (s.counted stn)).answered stn .pause r [])
      ((s.chan l).head = none → answer .wrongState fun u => u) ∧
      ∀ h, (s.chan l).head = some h →
        (h.mode = .play ∨ h.mode = .shuttle ∨ h.mode = .live →
          answer .ok fun u => u.steer l fun h => { h with mode := .paused, speed := 0 }) ∧
        (h.mode = .paused → answer .ok fun u => u) ∧
        ∀ ctx, h.mode = .clip ctx →
          (ctx.running = true →
            answer .ok fun u => u.steer l fun h => { h with mode := .clip { ctx with running := false }, speed := 0 }) ∧
          (ctx.running = false → answer .ok fun u => u)) ∧
   (∀ (s : State) (stn : Station) (channel : Byte) (c l : Chan), s.hears stn →
      chanOf? channel.toNat = some c → s.drives stn c → s.leaderOf c = l →
      ((s.chan l).head = none →
        exec (.live stn channel) s = .next (s.inEvent fun u => (u.counted stn).answered stn .live .wrongState [])) ∧
      ∀ h pmin pmax, (s.chan l).head = some h → s.span h.angle = some (pmin, pmax) →
        exec (.live stn channel) s =
          .next (s.inEvent fun u =>
            (((u.counted stn).leaveClip l).place l
              { h with mode := .live, position := pmax, speed := 720, clamp := false }).answered stn .live .ok [])) ∧
   (∀ (s : State) (stn : Station) (channel : Byte) (c : Chan), s.hears stn →
     chanOf? channel.toNat = some c → s.drives stn c →
     exec (.black stn channel) s =
       .next (((s.counted stn).modChan c fun ch => { ch with black := true }).answered stn .black .ok []) ∧
     exec (.unblack stn channel) s =
       .next (((s.counted stn).modChan c fun ch => { ch with black := false }).answered stn .unblack .ok []))

/-- LOAD: BAD_ARGUMENT, WRONG_STATE for a follower, NO_MATERIAL, or PAUSED on the angle at h × 720 clamped to its span,
from every state (R86, R97, R102). UNLOAD takes a channel to IDLE: it leaves CLIP and its gang, gives up its pin and
shows no valid frame, and a SHUTTLE channel that stops being a lever target is paused; an IDLE channel is not changed
(R86, R94, R105, R110, R142). -/
def Obligations.LoadAndUnload : Prop :=
   (∀ (s : State) (stn : Station) (channel angle : Byte) (h : BitVec 32) (c : Chan), s.hears stn →
      chanOf? channel.toNat = some c → s.drives stn c →
      let refused := fun r : Result =>
        exec (.load stn channel angle h) s = .next (s.inEvent fun u => (u.counted stn).answered stn .load r [])
      (angleOf? angle.toNat = none → refused .badArgument) ∧
      ∀ a, angleOf? angle.toNat = some a →
        (s.isFollower c = true → refused .wrongState) ∧
        (s.isFollower c = false → s.span a = none → refused .noMaterial) ∧
        ∀ pmin pmax, s.isFollower c = false → s.span a = some (pmin, pmax) → pmin ≤ pmax →
          exec (.load stn channel angle h) s =
            .next (s.inEvent fun u =>
              (((u.counted stn).leaveClip c).place c
                { mode := .paused, angle := a, position := max pmin (min pmax (h.toNat * 720)), speed := 0,
                  clamp := decide (h.toNat * 720 < pmin ∨ pmax < h.toNat * 720), anchor := none }).answered stn .load .ok
                    [])) ∧
   (∀ (s : State) (stn : Station) (channel : Byte) (c : Chan), s.hears stn →
      chanOf? channel.toNat = some c → s.drives stn c →
      ((s.chan c).head = none →
        exec (.unload stn channel) s = .next (s.inEvent fun u => (u.counted stn).answered stn .unload .ok [])) ∧
      ∀ h, (s.chan c).head = some h →
        exec (.unload stn channel) s =
          .next (s.inEvent fun u =>
            let t := (u.counted stn).leaveClip c
            let t := if s.isFollower c then t.unlinkFollower c else t.breakGang c
            (((t.movePin h.anchor none).modChan c fun ch =>
              { ch with head := none, frameValid := false }).settleLevers (u.counted stn)).answered stn .unload .ok []))

/-- ANGLE on a channel that is no gang follower: its refusals and its no change, and otherwise the new angle at the old
position clamped to the new span, or at Pmax in LIVE; in CLIP, end reached falls when the position changes (R103,
R120). On a gang follower: the new angle at the leader's position clamped to the new span, or at Pmax when the leader
is LIVE (R103). The clamp indication of a LIVE channel after it is the model's choice (notes/assumptions/41.md), and so is
NO_MATERIAL before the BAD_ARGUMENT of an angle outside the clip's set (notes/assumptions/50.md). -/
def Obligations.AngleKeepsTheMoment : Prop :=
   (∀ (s : State) (stn : Station) (channel angle : Byte) (c : Chan), s.hears stn →
      chanOf? channel.toNat = some c → s.drives stn c →
      let answer := fun (r : Result) (f : State → State) =>
        exec (.angle stn channel angle) s = .next ((f (s.counted stn)).answered stn .angle r [])
      (angleOf? angle.toNat = none → answer .badArgument fun u => u) ∧
      ∀ a, angleOf? angle.toNat = some a →
        ((s.chan c).head = none → answer .wrongState fun u => u) ∧
        ∀ h, (s.chan c).head = some h →
          let outside := ∃ ctx, h.mode = .clip ctx ∧
            ∀ clip, s.findClip ctx.clipId ctx.serial = some clip → a ∉ clip.angles
          (s.span a = none → answer .noMaterial fun u => u) ∧
          (s.span a ≠ none → outside → answer .badArgument fun u => u) ∧
          (s.span a ≠ none → ¬ outside → a = h.angle → answer .ok fun u => u) ∧
          ∀ pmin pmax, s.span a = some (pmin, pmax) → pmin ≤ pmax → ¬ outside → a ≠ h.angle → s.isFollower c = false →
            let position := if h.mode = .live then pmax else max pmin (min pmax h.position)
            let clamp := if h.mode = .live then false else decide (h.position < pmin ∨ pmax < h.position)
            let mode := match h.mode with
              | .clip ctx => Mode.clip { ctx with endReached := ctx.endReached && decide (position = h.position) }
              | m => m
            answer .ok fun u => u.place c { h with angle := a, position := position, clamp := clamp, mode := mode }) ∧
   (∀ (s : State) (stn : Station) (channel angle : Byte) (c l : Chan) (a : Angle) (h hl : Playhead) (pmin pmax : Nat),
      s.hears stn → chanOf? channel.toNat = some c → s.drives stn c → (s.chan c).gang = .follower l →
      angleOf? angle.toNat = some a → (s.chan c).head = some h → (s.chan l).head = some hl → a ≠ h.angle →
      (∀ ctx, h.mode ≠ .clip ctx) → s.span a = some (pmin, pmax) → pmin ≤ pmax →
      exec (.angle stn channel angle) s =
        .next (((s.counted stn).writeHead c
          { h with
              angle := a
              position := if hl.mode = .live then pmax else max pmin (min pmax hl.position)
              clamp := if hl.mode = .live then false else decide (hl.position < pmin ∨ pmax < hl.position) }).answered stn
            .angle .ok []))

/-- GANG joins the followers, ascending, to the leader: each leaves CLIP and is moved after it; the refusals are
checked before, BAD_ARGUMENT, the claims, WRONG_STATE (R108). What a gang partly claimed and partly unclaimed gives to
station 0 is the model's choice (notes/assumptions/14.md). UNGANG takes a follower out, PAUSED with speed 0 at its
position, or dissolves a leader's gang so that every follower leaves in this way; a channel in no gang is not changed.
All are answered OK (R110). -/
def Obligations.GangsAreJoinedAndBroken : Prop :=
   (∀ (s : State) (stn : Station) (leader : Byte) (followers : List Byte), s.hears stn →
      1 ≤ followers.length → followers.length ≤ 3 →
      let refused := fun r : Result =>
        exec (.gang stn leader followers) s = .next (s.inEvent fun u => (u.counted stn).answered stn .gang r [])
      (chanOf? leader.toNat = none ∨ (∃ f ∈ followers, chanOf? f.toNat = none) → refused .badArgument) ∧
      ∀ l named, chanOf? leader.toNat = some l → followers.map (fun f => chanOf? f.toNat) = named.map some →
        (¬ (l :: named).Nodup → refused .badArgument) ∧
        ((l :: named).Nodup →
          let fs := allChans.filter fun c => named.contains c
          (stn ≠ 0 → (∃ c ∈ l :: fs, s.holder c ≠ some stn) → refused .notClaimed) ∧
          (stn = 0 → (∃ c ∈ l :: fs, s.holder c ≠ none ∧ s.holder c ≠ some 0) → refused .claimed) ∧
          (stn = 0 → (∀ c ∈ l :: fs, s.holder c = none ∨ s.holder c = some 0) → (∃ c ∈ l :: fs, s.holder c = none) →
            (∃ c ∈ l :: fs, s.holder c = some 0) → refused .notClaimed) ∧
          ((∀ c ∈ l :: fs, s.holder c = some stn) ∨ (stn = 0 ∧ ∀ c ∈ l :: fs, s.holder c = none) →
            ((∃ c ∈ l :: fs, (s.chan c).head = none ∨ (s.chan c).gang ≠ .none) → refused .wrongState) ∧
            ((∀ c ∈ l :: fs, (s.chan c).head ≠ none ∧ (s.chan c).gang = .none) →
              exec (.gang stn leader followers) s =
                .next (s.inEvent fun u =>
                  let t := fs.foldl (fun t f => (t.leaveClip f).modChan f fun ch => { ch with gang := .follower l })
                    (u.counted stn)
                  (((t.modChan l fun ch => { ch with gang := .leader fs }).moveFollowers l).settleLevers
                    (u.counted stn)).answered stn .gang .ok []))))) ∧
   (∀ (s : State) (stn : Station) (channel : Byte) (c : Chan), s.hears stn →
      chanOf? channel.toNat = some c → s.drives stn c →
      let out := fun ch : Channel =>
        { ch with gang := .none, head := ch.head.map fun h => { h with mode := .paused, speed := 0 } }
      exec (.ungang stn channel) s =
        .next ((((s.counted stn).breakGang c).settleLevers (s.counted stn)).answered stn .ungang .ok []) ∧
      ((s.chan c).gang = .none →
        exec (.ungang stn channel) s = .next ((s.counted stn).answered stn .ungang .ok [])) ∧
      (∀ l fs, (s.chan c).gang = .follower l → (s.chan l).gang = .leader fs → l ≠ c →
        s.breakGang c =
          (s.modChan l fun ch =>
            { ch with gang := if fs.filter (· != c) = [] then .none else .leader (fs.filter (· != c)) }).modChan c out) ∧
      ∀ fs, (s.chan c).gang = .leader fs → c ∉ fs → fs.Nodup → (∀ f ∈ fs, (s.chan f).gang = .follower c) →
        (∀ f ∈ fs, (s.breakGang c).chan f = out (s.chan f)) ∧
        (s.breakGang c).chan c = { s.chan c with gang := .none } ∧
        ∀ d, d ∉ fs → d ≠ c → (s.breakGang c).chan d = s.chan d)

/-- The lever speed of a lever value from −100 to +100: 0 in the deadband, else the interpolation between two points of the
curve, with the sign of the lever value, within ±2,880 when every point is; and the values of the default curve (R90). -/
def Obligations.LeverSpeedInterpolatesTheCurve : Prop :=
  (∀ (curve : Vector Nat 11) (x : Int), -100 ≤ x → x ≤ 100 →
    (x.natAbs ≤ 3 → leverSpeed curve x = 0) ∧
    (∀ k : Fin 10, 3 < x.natAbs → (k.val = x.natAbs / 10 ∨ x.natAbs = 100 ∧ k.val = 9) →
      curve.get k.castSucc ≤ curve.get k.succ →
      leverSpeed curve x =
        x.sign * ((curve.get k.castSucc + (curve.get k.succ - curve.get k.castSucc) * (x.natAbs - 10 * k.val) / 10 : Nat) :
          Int)) ∧
    (x = 100 → curve.get 9 ≤ curve.get 10 → leverSpeed curve x = curve.get 10) ∧
    ((∀ i : Fin 10, curve.get i.castSucc ≤ curve.get i.succ) → (∀ i : Fin 11, curve.get i ≤ 2880) →
      -2880 ≤ leverSpeed curve x ∧ leverSpeed curve x ≤ 2880)) ∧
  [3, 4, 25, 55, -47, 75, 95, 100].map (leverSpeed #v[0, 18, 36, 72, 120, 180, 240, 360, 480, 720, 1440]) =
    [0, 7, 54, 210, -162, 420, 1080, 1440]

/-- The advance in SHUTTLE or PLAY by the speed, with the clamps at the span, the pass into LIVE at normal speed or faster
while the angle records, and the pause of PLAY at Pmin; in LIVE at Pmax, in PAUSED no move (R95, R96). In CLIP a running
advance moves by its step: forward to the end boundary, where the next cue is taken or the end hold, clamped at Pmax or
within the span; backward to the start, clamped at Pmin or within the span; a step of 0 tests no boundary; not running, it
does not move; and the speed field takes the step (R113, R116 to R118, R126). That the speed field takes a step of
2,881 too, past the range of R85, is deduced (notes/assumptions/37.md). -/
def Obligations.AdvancesMoveByTheirStep : Prop :=
   (∀ (s : State) (c : Chan) (h : Playhead), (s.chan c).head = some h →
      (h.mode = .paused → s.advance c = s) ∧
      ∀ pmin pmax, s.span h.angle = some (pmin, pmax) → pmin ≤ pmax →
        (h.mode = .live → s.advance c = s.place c { h with position := pmax, speed := 720, clamp := false }) ∧
        (h.mode = .shuttle ∨ h.mode = .play →
          let wanted : Int := h.position + h.speed
          (pmin ≤ wanted → wanted ≤ pmax →
            s.advance c = s.place c { h with position := wanted.toNat, clamp := false }) ∧
          (pmax < wanted → 720 ≤ h.speed → (s.recorder h.angle).state = .recording →
            s.advance c = s.place c { h with mode := .live, speed := 720, position := pmax, clamp := true }) ∧
          (pmax < wanted → (h.speed < 720 ∨ (s.recorder h.angle).state ≠ .recording) →
            s.advance c = s.place c { h with position := pmax, clamp := true }) ∧
          (wanted < pmin → h.mode = .play →
            s.advance c = s.place c { h with mode := .paused, speed := 0, position := pmin, clamp := true }) ∧
          (wanted < pmin → h.mode = .shuttle →
            s.advance c = s.place c { h with position := pmin, clamp := true }))) ∧
   (∀ (s : State) (c : Chan) (h : Playhead) (ctx : ClipContext) (clip : Clip) (out pmin pmax : Nat),
      (s.chan c).head = some h → h.mode = .clip ctx → s.findClip ctx.clipId ctx.serial = some clip →
      clip.outMark = some out → s.span h.angle = some (pmin, pmax) → pmin ≤ pmax →
      (ctx.running = false → s.advance c = s) ∧
      (ctx.running = true →
        let step := match ctx.mode with
          | .fixed v => v
          | .fit d q r e => if d ≤ e + r then (q : Int) + 1 else q
        let mode := match ctx.mode with
          | .fixed v => .fixed v
          | .fit d q r e => .fit d q r (if d ≤ e + r then e + r - d else e + r)
        let wanted : Int := h.position + step
        let at' := fun (running ended : Bool) (speed : Int) (position : Nat) (clamp : Bool) =>
          { h with
            mode := .clip { ctx with mode := mode, running := running, endReached := ended }
            speed := speed, position := position, clamp := clamp : Playhead }
        (step = 0 → s.advance c = s.place c (at' true false 0 h.position false)) ∧
        (0 < step → ((out + 1) * 720 : Nat) ≤ wanted → (s.chan c).cues = [] →
          let pend := (out + 1) * 720 - s.frameSpan h.angle
          s.advance c =
            (s.modChan c fun ch => { ch with staged := false }).place c
              (at' false true 0 (max pmin (min pmax pend)) (decide (pend < pmin ∨ pmax < pend)))) ∧
        (0 < step → ((out + 1) * 720 : Nat) ≤ wanted →
          let pend := (out + 1) * 720 - s.frameSpan h.angle
          let cue := (s.modChan c fun ch => { ch with staged := false }).takeNextCue c
          s.advance c =
            if cue.2 then cue.1
            else cue.1.place c (at' false true 0 (max pmin (min pmax pend)) (decide (pend < pmin ∨ pmax < pend)))) ∧
        (0 < step → wanted < ((out + 1) * 720 : Nat) → pmin ≤ wanted → wanted ≤ pmax →
          s.advance c = s.place c (at' true false step wanted.toNat false)) ∧
        (0 < step → wanted < ((out + 1) * 720 : Nat) → pmax < wanted →
          s.advance c = s.place c (at' true false step pmax true)) ∧
        (step < 0 → wanted < (clip.inMark * 720 : Nat) →
          s.advance c = s.place c (at' false false 0 (max pmin (min pmax (clip.inMark * 720)))
            (decide (clip.inMark * 720 < pmin ∨ pmax < clip.inMark * 720)))) ∧
        (step < 0 → (clip.inMark * 720 : Nat) ≤ wanted → wanted < pmin →
          s.advance c = s.place c (at' false false 0 pmin true)) ∧
        (step < 0 → (clip.inMark * 720 : Nat) ≤ wanted → pmin ≤ wanted → wanted ≤ pmax →
          s.advance c = s.place c (at' true false step wanted.toNat false))))

/-! ### Clip playback and cues -/

/-- LOAD_CLIP: its refusals in order, and otherwise the channel in CLIP, not running, at in × 720 clamped to the span,
with the speed mode set up and the use counts moved (R86, R114, R115, R128). The fit bytes of FIXED are free
(notes/assumptions/9.md). The empty result data of a refused LOAD_CLIP are deduced (notes/assumptions/10.md), and 1 for
limited is the model's choice (notes/assumptions/49.md). -/
def Obligations.LoadClipEntersClip : Prop :=
  ∀ (s : State) (stn : Station) (channel angle : Byte) (id serial : BitVec 16) (pace : Pace) (c : Chan), s.hears stn →
    let refused := fun r : Result =>
      exec (.loadClip stn channel id serial angle pace) s =
        .next (s.inEvent fun u => (u.counted stn).answered stn .loadClip r [])
    (chanOf? channel.toNat = none ∨ id = 0 ∨ 512 < id.toNat ∨ 8 < angle.toNat → refused .badArgument) ∧
    (chanOf? channel.toNat = some c → id ≠ 0 → id.toNat ≤ 512 → angle.toNat ≤ 8 →
      (∀ r, s.claimRefusal stn c = some r → refused r) ∧
      (s.drives stn c →
        (s.isFollower c = true → refused .wrongState) ∧
        (s.isFollower c = false → s.findClip id.toNat serial.toNat = none → refused .noClip) ∧
        ∀ clip, s.isFollower c = false → s.findClip id.toNat serial.toNat = some clip →
          let a := (angleOf? angle.toNat).getD clip.hero
          let taken := clip.state = .closed ∨ clip.state = .closing
          (¬ taken → refused .wrongState) ∧
          (taken → a ∉ clip.angles → refused .badArgument) ∧
          (taken → a ∈ clip.angles → s.span a = none → refused .noMaterial) ∧
          ∀ pmin pmax, taken → a ∈ clip.angles → s.span a = some (pmin, pmax) → pmin ≤ pmax →
            let start := clip.inMark * 720
            let position := max pmin (min pmax start)
            let grains := (clip.outMark.getD clip.inMark + 1 - clip.inMark) * 720
            let loaded := fun (mode : SpeedMode) (limited : Bool) (fit : State → List Byte) =>
              exec (.loadClip stn channel id serial angle pace) s =
                .next (s.inEvent fun u =>
                  let u := u.counted stn
                  let t := (u.leaveClip c).addUse clip.id clip.serial
                  let t := if limited then
                      (t.modChanCounts c fun n => { n with fitLimited := min (n.fitLimited + 1) 4294967295
                        }).raiseChanAlert c (.fitLimited c)
                    else t
                  ((t.modChan c fun ch => { ch with staged := false }).place c
                    { mode := .clip { clipId := clip.id, serial := clip.serial, running := false, endReached := false,
                                      mode := mode },
                      angle := a, position := position, speed := 0,
                      clamp := decide (start < pmin ∨ pmax < start), anchor := none }).answered stn .loadClip .ok
                    (BitVec.ofNat 8 (a.val + 1) ::
                      (beBytes 4 (position / 720) ++ beBytes 2 (position % 720) ++ fit u)))
            let free := fun u : State => (List.range 5).map fun i => Config.unstatedByte (.fixedFitTerm i) u.draws
            (pace = .none → loaded (.fixed (s.setting stn).playPreset) false free) ∧
            (∀ v, pace = .speed v → loaded (.fixed (max (-2880) (min 2880 v.toInt))) false free) ∧
            (∀ v, pace = .duration v → grains / max 1 v.toNat ≤ 2880 →
              loaded (.fit (max 1 v.toNat) (grains / max 1 v.toNat) (grains % max 1 v.toNat) 0) false fun _ =>
                beBytes 2 (grains / max 1 v.toNat) ++ beBytes 2 (grains % max 1 v.toNat) ++ [0]) ∧
            (∀ v, pace = .duration v → 2880 < grains / max 1 v.toNat →
              loaded (.fit (max 1 v.toNat) 2880 0 0) true fun _ => beBytes 2 2880 ++ beBytes 2 0 ++ [1])))

/-- From its set-up, a FIT that is not limited moves by exactly the clip's length in D running advances, by less in fewer,
and ends with its terms as they began; its steps are q, and q + 1 at a carry (R115, R116). -/
def Obligations.FitReachesTheBoundaryAtTheDthAdvance : Prop :=
  (∀ grains d : Nat, 1 ≤ grains → 1 ≤ d → grains / d ≤ 2880 →
    fitTerms grains d = (.fit d (grains / d) (grains % d) 0, false) ∧
    (fitTerms grains d).1.after d = ((grains : Int), (fitTerms grains d).1) ∧
    ∀ n, n < d → ((fitTerms grains d).1.after n).1 < grains) ∧
  ∀ d q r e : Nat,
    (e + r < d → SpeedMode.step (.fit d q r e) = ((q : Int), .fit d q r (e + r))) ∧
    (d ≤ e + r → SpeedMode.step (.fit d q r e) = ((q : Int) + 1, .fit d q r (e + r - d)))

/-- CUE_ADD appends a cue, with its speed or duration limited or the play preset, and answers the queue's length, or gives
BAD_ARGUMENT, whoever drives the channel, then the claim check's answer or QUEUE_FULL; CUE_CLEAR empties the queue and
takes the staging back (R122, R123). CUE_NEXT: WRONG_STATE on a follower; staged on a running clip; elsewhere the cues
that are not valid are skipped, each with its alert and count, and the first valid one is taken, or there is none and the
answer is NO_CLIP (R124 to R127). So it is wherever the next cue is taken, and the channel then runs in CLIP from the
clip's in mark clamped to the span, with its speed mode set up afresh and its speed field at it (R113, R115, R126, R127).
The empty result data of a refused CUE_ADD are deduced (notes/assumptions/10.md). -/
def Obligations.CuesAreQueuedAndTaken : Prop :=
   (∀ (s : State) (c : Chan),
      let skipped := fun n : Nat =>
        n.repeat (fun t => (t.modChanCounts c fun k => { k with cueSkips := min (k.cueSkips + 1) 4294967295 }
          ).raiseChanAlert c (.cueSkipped c)) s
      let valid := fun (q : Cue) (clip : Clip) =>
        s.findClip q.clipId q.serial = some clip ∧ (clip.state = .closed ∨ clip.state = .closing) ∧
          q.angle.getD clip.hero ∈ clip.angles ∧ s.span (q.angle.getD clip.hero) ≠ none
      ((∀ q ∈ (s.chan c).cues, ∀ clip, ¬ valid q clip) →
        s.takeNextCue c = ((skipped (s.chan c).cues.length).modChan c fun ch => { ch with cues := [] }, false)) ∧
      ∀ bad q rest clip, (s.chan c).cues = bad ++ q :: rest → (∀ b ∈ bad, ∀ x, ¬ valid b x) → valid q clip →
        s.takeNextCue c =
          (((skipped bad.length).modChan c fun ch => { ch with cues := rest }).enterClip c clip
            (q.angle.getD clip.hero) q.pace true, true)) ∧
   (∀ (s : State) (c : Chan) (clip : Clip) (a : Angle) (pace : CuePace) (running : Bool) (pmin pmax : Nat),
      s.span a = some (pmin, pmax) → pmin ≤ pmax →
      let start := clip.inMark * 720
      let grains := (clip.outMark.getD clip.inMark + 1 - clip.inMark) * 720
      let entered := fun (mode : SpeedMode) (speed : Int) (t : State) =>
        (t.modChan c fun ch => { ch with staged := false }).place c
          { mode := .clip { clipId := clip.id, serial := clip.serial, running := running, endReached := false,
                            mode := mode },
            angle := a, position := max pmin (min pmax start), speed := if running then speed else 0,
            clamp := decide (start < pmin ∨ pmax < start), anchor := none }
      let t := (s.leaveClip c).addUse clip.id clip.serial
      (∀ v, pace = .fixed v → s.enterClip c clip a pace running = entered (.fixed v) v t) ∧
      (∀ d, pace = .fit d → grains / d ≤ 2880 →
        s.enterClip c clip a pace running =
          entered (.fit d (grains / d) (grains % d) 0) ((grains / d : Nat) : Int) t) ∧
      ∀ d, pace = .fit d → 2880 < grains / d →
        s.enterClip c clip a pace running =
          entered (.fit d 2880 0 0) 2880
            ((t.modChanCounts c fun n => { n with fitLimited := min (n.fitLimited + 1) 4294967295 }
              ).raiseChanAlert c (.fitLimited c))) ∧
   (∀ (s : State) (stn : Station) (channel : Byte) (id serial : BitVec 16) (angle : Byte) (pace : Pace), s.hears stn →
      let refused := fun r : Result =>
        exec (.cueAdd stn channel id serial angle pace) s = .next ((s.counted stn).answered stn .cueAdd r [])
      let fits := id ≠ 0 ∧ id.toNat ≤ 512 ∧ angle.toNat ≤ 8
      (chanOf? channel.toNat = none ∨ ¬ fits → refused .badArgument) ∧
      ∀ c, chanOf? channel.toNat = some c → fits →
        (stn ≠ 0 → s.holder c ≠ some stn → refused .notClaimed) ∧
        (stn = 0 → s.holder c ≠ none → s.holder c ≠ some 0 → refused .claimed)) ∧
   (∀ (s : State) (stn : Station) (channel : Byte) (c : Chan), s.hears stn →
      chanOf? channel.toNat = some c → s.drives stn c →
      exec (.cueClear stn channel) s =
        .next (((s.counted stn).modChan c fun ch => { ch with cues := [], staged := false }).answered stn .cueClear .ok
          []) ∧
      ∀ (id serial : BitVec 16) (angle : Byte) (pace : Pace),
        (id ≠ 0 → id.toNat ≤ 512 → angle.toNat ≤ 8 →
          (12 ≤ (s.chan c).cues.length →
            exec (.cueAdd stn channel id serial angle pace) s =
              .next ((s.counted stn).answered stn .cueAdd .queueFull [])) ∧
          ((s.chan c).cues.length < 12 →
            let q : Cue :=
              { clipId := id.toNat, serial := serial.toNat, angle := angleOf? angle.toNat,
                pace := (match pace with
                  | .none => .fixed (s.setting stn).playPreset
                  | .speed v => .fixed (max (-2880) (min 2880 v.toInt))
                  | .duration v => .fit (max 1 v.toNat)) }
            exec (.cueAdd stn channel id serial angle pace) s =
              .next (((s.counted stn).modChan c fun ch => { ch with cues := ch.cues ++ [q] }).answered stn .cueAdd .ok
                [BitVec.ofNat 8 ((s.chan c).cues.length + 1)])))) ∧
   (∀ (s : State) (stn : Station) (channel : Byte) (c : Chan), s.hears stn →
      chanOf? channel.toNat = some c → s.drives stn c →
      let answer := fun (r : Result) (f : State → State) =>
        exec (.cueNext stn channel) s = .next (s.inEvent fun u => (f (u.counted stn)).answered stn .cueNext r [])
      let running := ∃ h ctx, (s.chan c).head = some h ∧ h.mode = .clip ctx ∧ ctx.running = true
      let skipped := fun (n : Nat) (u : State) =>
        n.repeat (fun t => (t.modChanCounts c fun k => { k with cueSkips := min (k.cueSkips + 1) 4294967295 }
          ).raiseChanAlert c (.cueSkipped c)) (u.modChan c fun ch => { ch with staged := false })
      let valid := fun (q : Cue) (clip : Clip) =>
        s.findClip q.clipId q.serial = some clip ∧ (clip.state = .closed ∨ clip.state = .closing) ∧
          q.angle.getD clip.hero ∈ clip.angles ∧ s.span (q.angle.getD clip.hero) ≠ none
      (s.isFollower c = true → answer .wrongState fun u => u) ∧
      (s.isFollower c = false → running → answer .ok fun u => u.modChan c fun ch => { ch with staged := true }) ∧
      (s.isFollower c = false → ¬ running →
        ((∀ q ∈ (s.chan c).cues, ∀ clip, ¬ valid q clip) →
          answer .noClip fun u =>
            (skipped (s.chan c).cues.length u).modChan c fun ch => { ch with cues := [] }) ∧
        ∀ bad q rest clip, (s.chan c).cues = bad ++ q :: rest → (∀ b ∈ bad, ∀ x, ¬ valid b x) → valid q clip →
          answer .ok fun u =>
            ((skipped bad.length u).modChan c fun ch => { ch with cues := rest }).enterClip c clip
              (q.angle.getD clip.hero) q.pace true))

/-! ### Frame selection and the fetch port -/

/-- Frame selection shows frame A when it is held and not faulted, the last frame before a gap, or the nearest earlier
good frame of the page, and never a faulted one; a weight from 1 to 15 is sent with frame B alone, and frame B is sent
whenever the weight is above 0 and the frame after frame A is held, not faulted, and at or below the live edge (R132 to
R135). -/
def Obligations.SelectionShowsAGoodFrame : Prop :=
  ∀ (l : List Page) (liveEdge : Option Nat) (blend : Bool) (position fs : Nat) (p : Page),
    0 < fs → lowerPage l (position / fs) = some p → 0 < p.count →
    let frame := position / fs
    let isHeld := frame < p.firstFrame + p.count
    let wanted := if isHeld then frame - p.firstFrame else p.count - 1
    let weight := if blend then position % fs * 16 / fs else 0
    ((∀ i ≤ wanted, i ∈ p.faulted) ↔ selectFrames l liveEdge blend position fs = none) ∧
    ∀ sel, selectFrames l liveEdge blend position fs = some sel →
      sel.placeA.page = p.number ∧ sel.placeA.index ≤ wanted ∧ sel.placeA.index ∉ p.faulted ∧
      (∀ j, sel.placeA.index < j → j ≤ wanted → j ∈ p.faulted) ∧
      sel.weight ≤ 15 ∧ (0 < sel.weight ↔ sel.placeB ≠ none) ∧
      (0 < sel.weight → isHeld ∧ sel.placeA.index = wanted ∧ sel.weight = weight) ∧
      (∀ q i slot before e, 0 < weight → isHeld → wanted ∉ p.faulted →
        lookup l (frame + 1) = .held q i slot false before → liveEdge = some e → frame + 1 ≤ e →
        sel.placeB = some { page := q.number, index := i } ∧ sel.weight = weight) ∧
      ∀ b, sel.placeB = some b → ∃ q isFaulted before, ∃ e, liveEdge = some e ∧ frame + 1 ≤ e ∧
        lookup l (frame + 1) = .held q b.index b.slot isFaulted before ∧ isFaulted = false ∧ b.page = q.number

/-- A request takes the next free tag and a place among the two fetches in flight, with a fetch hold on each page it names;
with two in flight it is a late skip. A black channel asks for black; one with no frame to show asks for nothing; a frame is
selected from its angle's list at its position with the blend setting of its holder, or of station 0 (R131, R132, R134,
R136, R137). -/
def Obligations.RequestsTakeATagAndHolds : Prop :=
  ∀ (s : State) (c : Chan) (h : Playhead), (s.chan c).head = some h →
    let ch := s.chan c
    (s.selectFor c h =
      selectFrames (s.pageList h.angle) (s.recorder h.angle).liveEdge (s.setting ((s.holder c).getD 0)).blend h.position
        (720 / (s.recorder h.angle).rateMultiple)) ∧
    (2 ≤ ch.inFlight.length → ∀ sel,
      s.issue c sel = s.modChanCounts c fun n => { n with lateSkips := min (n.lateSkips + 1) 4294967295 }) ∧
    (ch.black = true → s.requestFor c = s.issue c none) ∧
    (ch.black = false → s.selectFor c h = none →
      s.requestFor c = s.modChanCounts c fun n => { n with unshown := min (n.unshown + 1) 4294967295 }) ∧
    (∀ sel, ch.black = false → s.selectFor c h = some sel → s.requestFor c = s.issue c (some sel)) ∧
    ∀ tag, ch.inFlight.length < 2 →
      (if ∃ e ∈ ch.inFlight, e.tag = ch.nextTag then tag = (ch.nextTag + 1) % 256 else tag = ch.nextTag) →
      let issued := fun (e : FetchEntry) (t : State) => t.modChan c fun ch =>
        { ch with inFlight := ch.inFlight ++ [e], nextTag := (tag + 1) % 256,
                  counts := { ch.counts with issued := min (ch.counts.issued + 1) 4294967295 } }
      let hold := fun p : Page => { p with fetchHolds := p.fetchHolds + 1 }
      s.issue c none =
        { issued { tag := tag, black := true, pageA := none, pageB := none, superseded := false } s with
          fetchOut := s.fetchOut ++
            [{ channel := c, tag := tag, slotA := none, slotB := none, weight := 0, black := true }] } ∧
      ∀ a b w,
        s.issue c (some { placeA := a, placeB := none, weight := w }) =
          { issued { tag := tag, black := false, pageA := some a.page, pageB := none, superseded := false }
              (s.modPage a.page hold) with
            fetchOut := s.fetchOut ++
              [{ channel := c, tag := tag, slotA := some (a.page * 64 + a.index), slotB := none, weight := w,
                 black := false }] } ∧
        s.issue c (some { placeA := a, placeB := some b, weight := w }) =
          { issued { tag := tag, black := false, pageA := some a.page,
                     pageB := if b.page = a.page then none else some b.page, superseded := false }
              (if b.page = a.page then s.modPage a.page hold else (s.modPage a.page hold).modPage b.page hold) with
            fetchOut := s.fetchOut ++
              [{ channel := c, tag := tag, slotA := some (a.page * 64 + a.index), slotB := some (b.page * 64 + b.index),
                 weight := w, black := false }] }

/-- FETCH_COMPLETION: outside 1 to 4 or without a matching tag it is counted; a matched one leaves the fetches in flight and
gives up its holds; OK updates the shown output and supersedes older entries, or is stale; FAULT drops frame-valid, or is
stale too and drops nothing, and a fetch that is not black is counted with its alert (R130, R138 to R141). That a FAULT of
a superseded fetch counts as stale is deduced from R130's table (notes/assumptions/46.md). -/
def Obligations.FetchCompletionsAreMatchedByTag : Prop :=
  ∀ (s : State) (channel : BitVec 3) (tag : BitVec 8) (status : BitVec 2), s.resetHeld = false →
    (chanOf? channel.toNat = none →
      exec (.fetchCompletion channel tag status) s =
        .next { s with unmatchedPartWide := min (s.unmatchedPartWide + 1) 4294967295 }) ∧
    ∀ c, chanOf? channel.toNat = some c →
      ((∀ e ∈ (s.chan c).inFlight, e.tag ≠ tag.toNat) →
        exec (.fetchCompletion channel tag status) s =
          .next (s.modChanCounts c fun n => { n with unmatched := min (n.unmatched + 1) 4294967295 })) ∧
      ∀ older e newer, (s.chan c).inFlight = older ++ e :: newer → e.tag = tag.toNat →
        (∀ o ∈ older, o.tag ≠ tag.toNat) →
        let drop := fun p : Page => { p with fetchHolds := p.fetchHolds - 1 }
        let freed := (s.modPage? e.pageA drop).modPage? e.pageB drop
        (status = 0 → e.superseded = false →
          exec (.fetchCompletion channel tag status) s =
            .next (freed.modChan c fun ch =>
              { ch with inFlight := older.map (fun o => { o with superseded := true }) ++ newer
                        lastShown := some e.tag, frameValid := true })) ∧
        (status = 0 → e.superseded = true →
          exec (.fetchCompletion channel tag status) s =
            .next (freed.modChan c fun ch =>
              { ch with inFlight := older ++ newer
                        counts := { ch.counts with stale := min (ch.counts.stale + 1) 4294967295 } })) ∧
        let stale := fun n : Nat => if e.superseded then min (n + 1) 4294967295 else n
        (status ≠ 0 → e.black = true →
          exec (.fetchCompletion channel tag status) s =
            .next (freed.modChan c fun ch =>
              { ch with inFlight := older ++ newer
                        frameValid := if e.superseded then ch.frameValid else false
                        counts := { ch.counts with stale := stale ch.counts.stale } })) ∧
        (status ≠ 0 → e.black = false →
          exec (.fetchCompletion channel tag status) s =
            .next ((freed.modChan c fun ch =>
              { ch with inFlight := older ++ newer
                        frameValid := if e.superseded then ch.frameValid else false
                        counts := { ch.counts with
                          readFaults := min (ch.counts.readFaults + 1) 4294967295, stale := stale ch.counts.stale }
              }).raiseAlert ((s.holder c).getD 0) (.readFault c)))

/-! ### Claims and routing -/

/-- SELECT of a channel the station drives, or of none, makes it the selected channel; a SHUTTLE channel, no gang follower,
that stops being the lever target becomes PAUSED with speed 0 (R94, R147). -/
def Obligations.SelectMovesTheLeverTarget : Prop :=
  ∀ (s : State) (stn : Station) (channel : Byte) (wanted : Option Chan), s.hears stn →
    (channel = 0 ∧ wanted = none ∨ ∃ c, wanted = some c ∧ chanOf? channel.toNat = some c ∧ s.drives stn c) →
    let set := (s.counted stn).modLink stn fun l => { l with selected := wanted }
    (∀ c h, s.leverTarget stn = some c → wanted.map s.leaderOf ≠ some c → (s.chan c).head = some h →
      h.mode = .shuttle → s.isFollower c = false →
      exec (.select stn channel) s =
        .next ((set.steer c fun h => { h with mode := .paused, speed := 0 }).answered stn .select .ok [])) ∧
    ((∀ c h, s.leverTarget stn = some c → (s.chan c).head = some h →
        wanted.map s.leaderOf = some c ∨ h.mode ≠ .shuttle ∨ s.isFollower c = true) →
      exec (.select stn channel) s = .next (set.answered stn .select .ok []))

/-- CLAIM is answered OK at once by the holder, and otherwise joins the pending claims with the slot IN_PROGRESS; CANCEL
ends it with CANCELLED, stops a running listing, or finds nothing (R148, R152, R169, R173). The data of a CLAIM held already
and of a CANCEL that ended no claim are the model's choice (notes/assumptions/9.md, notes/assumptions/10.md). -/
def Obligations.ClaimsArePlacedAndCancelled : Prop :=
  ∀ (s : State) (stn : Station),
    (∀ (channel : Byte) (c : Chan), s.hears stn → chanOf? channel.toNat = some c →
      (s.holder c = some stn →
        exec (.claim stn channel) s = .next ((s.counted stn).answered stn .claim .ok [channel])) ∧
      (s.holder c ≠ some stn →
        exec (.claim stn channel) s =
          .next (((s.counted stn).setPendingClaim stn (some { channel := c, age := 0 })).writeAck stn
            { state := .inProgress, kind := some 48, result := none, data := [] }))) ∧
    (∀ channel : Byte, s.hears stn → chanOf? channel.toNat = none →
      exec (.claim stn channel) s = .next ((s.counted stn).answered stn .claim .badArgument [])) ∧
    (s.resetHeld = false → (s.link stn).state ≠ .off →
      (∀ p, s.pendingClaim stn = some p →
        exec (.cancel stn) s =
          .next (((s.counted stn).setPendingClaim stn none).answered stn .cancel .ok
            [BitVec.ofNat 8 (p.channel.val + 1), 1])) ∧
      (s.pendingClaim stn = none → (s.link stn).listing ≠ .stopped →
        exec (.cancel stn) s =
          .next (((s.counted stn).modLink stn fun l => { l with listing := .stopped }).answered stn .cancel .ok
            [Config.unstatedByte .cancelChannel (s.draws + 1), 0])) ∧
      (s.pendingClaim stn = none → (s.link stn).listing = .stopped →
        exec (.cancel stn) s =
          .next ((s.counted stn).answered stn .cancel .nothingPending
            [Config.unstatedByte .cancelChannel (s.draws + 1), 0])))

/-- RELEASE by the holder and FORCE_RELEASE by station 0 make the channel unclaimed, break it out of its gang, and put the
former holder in cool-down with run 0; of an unclaimed channel they are answered OK and change nothing, and a
FORCE_RELEASE of a channel outside 1 to 4 gives BAD_ARGUMENT (R153 to R155). -/
def Obligations.ReleasesStartACoolDown : Prop :=
  (∀ (s : State) (channel : Byte), s.hears 0 → chanOf? channel.toNat = none →
    exec (.forceRelease 0 channel) s = .next ((s.counted 0).answered 0 .forceRelease .badArgument [])) ∧
  ∀ (s : State) (channel : Byte) (c : Chan), chanOf? channel.toNat = some c →
    let released := fun (u : State) (k : Station) =>
      ((((u.setHolder c none).modLink k fun l =>
        { l with selected := if l.selected = some c then none else l.selected }).breakGang c).settleLevers u).setCoolDown
          k c (some 0)
    (∀ stn, s.hears stn → s.holder c = some stn →
      exec (.release stn channel) s = .next ((released (s.counted stn) stn).answered stn .release .ok [])) ∧
    (s.hears 0 →
      (s.holder c = none →
        exec (.release 0 channel) s = .next ((s.counted 0).answered 0 .release .ok []) ∧
        exec (.forceRelease 0 channel) s = .next ((s.counted 0).answered 0 .forceRelease .ok [])) ∧
      ∀ k, s.holder c = some k →
        exec (.forceRelease 0 channel) s = .next ((released (s.counted 0) k).answered 0 .forceRelease .ok []))

/-- CUT and PREVIEW from the holder of the channel or from station 0, and TAKE from the holder of the channel on PVW or from
station 0, set PGM and PVW; from another station they give NOT_CLAIMED (R157, R158). -/
def Obligations.RoutesAreCutPreviewedAndTaken : Prop :=
  ∀ (s : State) (stn : Station), s.hears stn →
    let routed := fun (kind : CommandKind) (r : Result) (pgm pvw : Chan) =>
      Host.Outcome.next (φ := Fault) (ρ := Refusal)
        (({ s.counted stn with arbiter := { s.arbiter with pgm := pgm, pvw := pvw } } : State).answered stn kind r [])
    let pgm := s.arbiter.pgm
    let pvw := s.arbiter.pvw
    (∀ channel c, chanOf? channel.toNat = some c →
      (stn ≠ 0 → s.holder c ≠ some stn →
        exec (.cut stn channel) s = routed .cut .notClaimed pgm pvw ∧
        exec (.preview stn channel) s = routed .preview .notClaimed pgm pvw) ∧
      (stn = 0 ∨ s.holder c = some stn →
        (pgm = c → exec (.cut stn channel) s = routed .cut .ok pgm pvw) ∧
        (pgm ≠ c → pvw ≠ c → exec (.cut stn channel) s = routed .cut .ok c pvw) ∧
        (pgm ≠ c → pvw = c → exec (.cut stn channel) s = routed .cut .ok c (if c = 0 then 1 else 0)) ∧
        (pvw = c → exec (.preview stn channel) s = routed .preview .ok pgm pvw) ∧
        (pvw ≠ c → pgm = c → exec (.preview stn channel) s = routed .preview .wrongState pgm pvw) ∧
        (pvw ≠ c → pgm ≠ c → exec (.preview stn channel) s = routed .preview .ok pgm c))) ∧
    (∀ channel, chanOf? channel.toNat = none →
      exec (.cut stn channel) s = routed .cut .badArgument pgm pvw ∧
      exec (.preview stn channel) s = routed .preview .badArgument pgm pvw) ∧
    (stn = 0 ∨ s.holder pvw = some stn → exec (.take stn) s = routed .take .ok pvw pgm) ∧
    (stn ≠ 0 → s.holder pvw ≠ some stn → exec (.take stn) s = routed .take .notClaimed pgm pvw)

/-- At a house frame the arbiter grants an unclaimed channel to the lowest-numbered station that asks for it and is not in
cool-down for it, answers its CLAIM and selects the channel where the station has none; a held channel and one nobody may
be granted stand (R150, R153). That a grant leaves the cool-down runs to the next house frame's update is deduced
(notes/assumptions/44.md); in which order the channels are granted is the model's choice (notes/assumptions/48.md). -/
def Obligations.GrantsGoToTheLowestStation : Prop :=
  ∀ (s : State) (c : Chan),
    let asks := fun k : Station => (∃ age, s.pendingClaim k = some { channel := c, age := age }) ∧ s.coolDownRun k c = none
    (s.holder c ≠ none → s.grantChan c = s) ∧
    (s.holder c = none → (∀ k, ¬ asks k) → s.grantChan c = s) ∧
    ∀ k, s.holder c = none → asks k → (∀ j, j < k → ¬ asks j) →
      let t := ((s.setHolder c (some k)).setPendingClaim k none).writeAck k
        { state := .done, kind := some 48, result := some .ok, data := [BitVec.ofNat 8 (c.val + 1)] }
      let t := if k = 0 then t else t.modLink 0 fun l =>
        { l with selected := if l.selected = some c then none else l.selected }
      let t := t.modLink k fun l => { l with selected := if l.selected = none then some c else l.selected }
      s.grantChan c = (t.breakGang c).settleLevers s

/-! ### Control links -/

/-- LINK_LOSS takes an UP link to LOST and pauses the moving channels its station holds; GRACE_EXPIRY of a LOST link
releases its station's claims without cool-down, ends its pending claim with TIMEOUT, marks out its OPEN clip at the
newest complete house frame as MARK_OUT does, and enters DOWN with the session values (R68, R69, R82, R111, R156, R163 to
R165). That each row is the last raise is the model's choice (notes/assumptions/3.md); that a frame in reception and a
report in transmission go on is deduced (notes/assumptions/45.md). -/
def Obligations.LossPausesAndGraceReleases : Prop :=
  ∀ (s : State) (k : Station), s.resetHeld = false →
    ((s.link k).state = .up → (s.link k).lossCount = 7 →
      let t := (s.modLink k fun l =>
        { l with state := .lost, lossCount := 8, graceCount := 0
                 counts := { l.counts with lossEntries := min (l.counts.lossEntries + 1) 4294967295 } }).pauseStation k
      exec (.linkLoss k) s = .next t ∧
      ∀ c h, s.holder c = some k → s.isFollower c = false → (∀ d, c ∉ s.followersOf d) → (s.chan c).head = some h →
        (t.chan c).head = some (match h.mode with
          | .play | .shuttle => { h with mode := .paused, speed := 0 }
          | .clip ctx =>
            if ctx.running then { h with mode := .clip { ctx with running := false }, speed := 0 } else h
          | _ => h)) ∧
    ((s.link k).state = .lost → (s.link k).graceCount = 299 →
      ∃ t, exec (.graceExpiry k) s = .next t ∧
        t = (s.inEvent fun u =>
          (((u.releaseStation k).graceMarkOut k).enterSession k .down).modLinkCounts k fun n =>
            { n with graceExpiries := min (n.graceExpiries + 1) 4294967295 }) ∧
        (∀ c, t.holder c = if s.holder c = some k then none else s.holder c) ∧ t.pendingClaim k = none ∧
        (∀ j, j ≠ k → t.pendingClaim j = s.pendingClaim j) ∧ t.arbiter.coolDown = s.arbiter.coolDown ∧
        t.link k =
          { s.link k with
            state := .down, lossCount := 0, graceCount := 0, lever := { oldest := 0, middle := 0, newest := 0 }
            engaged := false, confirmRun := 0, armed := true, keys := Vector.replicate 8 .spent, selected := none
            toggleSeen := false, toggleSynced := false
            ack := { state := .idle, kind := none, result := none, data := [] }
            listing := .stopped, alerts := .zero
            counts := { (s.link k).counts with
              graceExpiries := min ((s.link k).counts.graceExpiries + 1) 4294967295 } }) ∧
    (s.openClip k = none → s.graceMarkOut k = s) ∧
    ∀ c, s.openClip k = some c →
      let mark := s.timeBase.houseCount - 1
      let closed := fun (inMark outMark : Nat) (scan : State → State) =>
        s.graceMarkOut k =
          ((scan ((s.modClip c.id c.serial fun d =>
              { d with state := .closing, inMark := inMark, outMark := some outMark }).raiseGeneration.modOpenCounts
            c.angles (· - 1))).queueScan c .remove .tail (outMark + 1) none false).settleScans
      (c.inMark ≤ mark → closed c.inMark (min mark (c.inMark + 1048574)) id) ∧
      (mark < c.inMark → c.scansPending = 0 →
        closed mark (min c.inMark (mark + 1048574)) fun t => t.queueScan c .add .lead mark (some c.inMark) false) ∧
      (mark < c.inMark → 0 < c.scansPending → closed c.inMark c.inMark id)

/-- LIST starts its listing at cursor 1, or refuses tag 0; a report built while it runs and is not held takes the matching
clip of least id at or above the cursor, or the end marker (R173). -/
def Obligations.ListingsWalkTheClipTable : Prop :=
  ∀ (s : State) (stn : Station),
    (s.hears stn → ∀ filter,
      (filter = .tag 0 → exec (.list stn filter) s = .next ((s.counted stn).answered stn .list .badArgument [])) ∧
      (filter ≠ .tag 0 →
        exec (.list stn filter) s =
          .next (((s.counted stn).modLink stn fun l => { l with listing := .running filter 1 }).answered stn .list .ok
            []))) ∧
    ((s.link stn).listing = .stopped → s.listingStep stn = (.none, .stopped)) ∧
    ∀ filter cursor, (s.link stn).listing = .running filter cursor →
      ((s.link stn).listingHold = true → s.listingStep stn = (.none, .running filter cursor)) ∧
      ((s.link stn).listingHold = false → s.clips.clips.Pairwise (fun c d => c.id < d.id) →
        let wanted := fun c : Clip => cursor ≤ c.id ∧ (match filter with
          | .all => True
          | .own => c.owner = stn
          | .tag t => t ∈ c.tags)
        ((∀ c ∈ s.clips.clips, ¬ wanted c) → s.listingStep stn = (.endMarker, .stopped)) ∧
        ∀ c ∈ s.clips.clips, wanted c → (∀ d ∈ s.clips.clips, wanted d → c.id ≤ d.id) →
          s.listingStep stn = (.record c, .running filter (c.id + 1)))

/-- LINK_SET from station 0: BAD_ARGUMENT outside its ranges and for disabling link 0; otherwise the divisor is set, an
enabled link that is disabled enters OFF with its claims released and its frames abandoned, a disabled one that is enabled
enters DOWN, and the answer gives link, enable, divisor and state (R156, R161, R165, R180). The divisor of a frame in
reception is deduced (notes/assumptions/18.md). The empty result data of BAD_ARGUMENT are deduced
(notes/assumptions/10.md), and 1 for an enable of yes is the model's choice (notes/assumptions/49.md). -/
def Obligations.LinkSetEnablesAndDisables : Prop :=
  ∀ (s : State) (link enable divisor : Byte), s.hears 0 →
    let u := s.counted 0
    let set := fun l : Link =>
      { l with divisor := divisor.toNat, rxDivisor := if l.rx = [] then divisor.toNat else l.rxDivisor }
    (5 ≤ link.toNat ∨ divisor.toNat = 0 ∨ 16 < divisor.toNat ∨ link = 0 ∧ enable = 0 →
      exec (.linkSet 0 link enable divisor) s = .next (u.answered 0 .linkSet .badArgument [])) ∧
    ∀ k : Station, link.toNat = k.val → 1 ≤ divisor.toNat → divisor.toNat ≤ 16 →
      (enable ≠ 0 → (s.link k).enabled = true →
        exec (.linkSet 0 link enable divisor) s =
          .next ((u.modLink k set).answered 0 .linkSet .ok [link, 1, divisor, (match (s.link k).state with
            | .off => 0
            | .down => 1
            | .up => 2
            | .lost => 3)])) ∧
      (k ≠ 0 → enable = 0 → (s.link k).enabled = true →
        exec (.linkSet 0 link enable divisor) s =
          .next (((((u.releaseStation k).enterSession k .off).modLink k fun l =>
              { l with enabled := false, rx := [], tx := none }).modLink k set).answered 0 .linkSet .ok
            [link, 0, divisor, 0])) ∧
      (enable ≠ 0 → (s.link k).enabled = false →
        exec (.linkSet 0 link enable divisor) s =
          .next ((((u.enterSession k .down).modLink k fun l => { l with enabled := true }).modLink k set).answered 0
            .linkSet .ok [link, 1, divisor, 1])) ∧
      (k ≠ 0 → enable = 0 → (s.link k).enabled = false → (s.link k).state = .off →
        exec (.linkSet 0 link enable divisor) s =
          .next ((u.modLink k set).answered 0 .linkSet .ok [link, 0, divisor, 0]))

/-- DESK_FRAME: the bytes of a desk frame received whole are one accepted frame of the link; bytes that make a rejected
frame, and INTERBYTE_TIMEOUT of one in reception, change nothing but its count and the reception; a link in OFF and a
gap without a frame in reception take nothing (R161, R162, R185). That a byte with a framing error starts no frame is
the model's choice (notes/assumptions/16.md); the divisor the next frame is received at is deduced
(notes/assumptions/18.md). -/
def Obligations.FramesAreAcceptedOrOnlyCounted : Prop :=
  ∀ (s : State) (k : Station) (moment : Nat) (order : List Reaction), s.resetHeld = false →
    let ready := fun t : State => if (t.link k).state = .off then t else t.modLink k Link.clearRx
    ((s.link k).state = .off → ∀ bytes, exec (.deskFrame k bytes moment order) s = .next s) ∧
    ((s.link k).rx = [] → exec (.interbyteTimeout k moment order) s = .next s) ∧
    ((s.link k).state ≠ .off →
      (∀ f : DeskFrame, f.fits → (s.link k).rx = [] →
        exec (.deskFrame k (cleanBytes (f.bytes k)) moment order) s =
          .next (ready ((s.modLink k Link.clearRx).inEvent fun u => u.acceptFrame k moment order f))) ∧
      (∀ b after fault, (s.link k).rx = [] → beginsFrame b = true → (∀ x ∈ after, beginsFrame x = false) →
        judgeFrame k after = .rejected fault →
        exec (.deskFrame k (b :: after) moment order) s =
          .next ((s.modLinkCounts k fun n => (match fault with
            | .format => { n with formatFaults := min (n.formatFaults + 1) 4294967295 }
            | .crc => { n with crcFaults := min (n.crcFaults + 1) 4294967295 }
            | .station => { n with mismatches := min (n.mismatches + 1) 4294967295 })).modLink k Link.clearRx)) ∧
      (∀ b after, (s.link k).rx = b :: after → beginsFrame b = true → (∀ x ∈ after, beginsFrame x = false) →
        judgeFrame k after = .incomplete →
        exec (.interbyteTimeout k moment order) s =
          .next ((s.modLinkCounts k fun n =>
            { n with formatFaults := min (n.formatFaults + 1) 4294967295 }).modLink k Link.clearRx)))

/-- What an accepted frame does to its link: UP with loss count 0, the clamped reading in the lever history, the keys
judged so that one acts when it is seen held the second time; the lever value is the median; the engagement is judged by
its table, and moves a lever target into and out of SHUTTLE: an engagement with the armed flag yes takes one that is not
IDLE, out of its clip too; with the flag no, on an IDLE one, or without one it moves nothing; a disengagement pauses one
in SHUTTLE and arms (R86, R91 to R93, R163, R164, R166, R167). -/
def Obligations.AcceptedFramesJudgeLeverAndKeys : Prop :=
  (∀ (l : Link) (f : DeskFrame),
    (l.accept f).state = .up ∧ (l.accept f).lossCount = 0 ∧ (l.accept f).listingHold = f.listingHold ∧
    (l.accept f).counts = { l.counts with accepted := min (l.counts.accepted + 1) 4294967295 } ∧
    (l.accept f).lever =
      { oldest := l.lever.middle, middle := l.lever.newest, newest := max (-100) (min 100 f.lever.toInt) } ∧
    (∀ i : Fin 8, (l.accept f).keys.get i =
      if f.keys.getLsbD i.val then (if l.keys.get i = .ready then .pressed else .spent) else .ready) ∧
    (∀ i : Fin 8, i ∈ l.actingKeys f.keys ↔ l.keys.get i = .pressed ∧ f.keys.getLsbD i.val = true)) ∧
  (∀ x : LeverHistory,
    let readings := [x.oldest, x.middle, x.newest]
    x.median ∈ readings ∧ 2 ≤ readings.countP (fun r => decide (r ≤ x.median)) ∧
      2 ≤ readings.countP fun r => decide (x.median ≤ r)) ∧
  (∀ (run : Nat) (x : Int),
    (3 < x.natAbs → judgeLever false 0 x = (false, 1, .neither) ∧ judgeLever false 1 x = (true, 0, .engages) ∧
      judgeLever true run x = (true, 0, .neither)) ∧
    (x.natAbs ≤ 3 → judgeLever false run x = (false, 0, .neither) ∧ judgeLever true 0 x = (true, 1, .neither) ∧
      judgeLever true 1 x = (false, 0, .disengages))) ∧
  ∀ (s : State) (k : Station) (x : Int),
    let judged := judgeLever (s.link k).engaged (s.link k).confirmRun x
    let armed := (s.link k).armed
    let speed := leverSpeed s.curve x
    let set := s.modLink k fun l =>
      { l with engaged := judged.1, confirmRun := judged.2.1
               armed := if judged.2.2 = .disengages then true else l.armed }
    (s.leverTarget k = none → s.leverWork k x = set) ∧
    ∀ c, s.leverTarget k = some c →
      ((s.chan c).head = none → s.leverWork k x = set) ∧
      ∀ h, (s.chan c).head = some h →
        let driven := fun t : State => t.steer c fun h => { h with speed := speed }
        let shuttled := fun t : State => driven (t.steer c fun h => { h with mode := .shuttle, speed := speed })
        (judged.2.2 = .engages → armed = true → h.mode = .paused ∨ h.mode = .play ∨ h.mode = .live →
          s.leverWork k x = shuttled set) ∧
        (∀ ctx, judged.2.2 = .engages → armed = true → h.mode = .clip ctx →
          s.leverWork k x = shuttled (set.leaveClip c)) ∧
        (judged.2.2 = .engages → armed = false → h.mode ≠ .shuttle → s.leverWork k x = set) ∧
        (judged.2.2 ≠ .disengages → h.mode = .shuttle → s.leverWork k x = driven set) ∧
        (judged.2.2 = .disengages → h.mode = .shuttle → s.isFollower c = false →
          s.leverWork k x = set.steer c fun h => { h with mode := .paused, speed := 0 }) ∧
        (judged.2.2 = .disengages → h.mode ≠ .shuttle → s.leverWork k x = set) ∧
        (judged.2.2 = .neither → h.mode ≠ .shuttle → s.leverWork k x = set)

/-- An accepted desk frame acts in one event in the order lever, jog, confirmed keys from MARK IN to ANGLE NEXT, command
(R87). A nonzero jog without a lever target, or on an IDLE one, raises KEY_IGNORED and does nothing else; with the lever
engaged it is ignored; otherwise the lever target stops and stands at a whole angle frame, that many away, clamped to the
span (R87, R98, R120). -/
def Obligations.DeskFramesActInTheirOrder : Prop :=
  (∀ (s : State) (k : Station) (moment : Nat) (order : List Reaction) (f : DeskFrame),
    let acting := (s.link k).actingKeys f.keys
    let heard := s.modLink k fun l => l.accept f
    let levered := heard.leverWork k (heard.link k).lever.median
    let jogged := levered.jogWork k (max (-64) (min 63 f.jog.toInt))
    acting.Pairwise (· < ·) ∧
    s.acceptFrame k moment order f =
      (acting.foldl (fun t i => t.keyAction k i) jogged).handshake k moment order f) ∧
  ∀ (s : State) (k : Station) (n : Int),
    let ignored := s.modLink k fun l => { l with alerts := { l.alerts with keyIgnored := 60 } }
    (n = 0 → s.jogWork k n = s) ∧
    (n ≠ 0 → s.leverTarget k = none → s.jogWork k n = ignored) ∧
    ∀ c, n ≠ 0 → s.leverTarget k = some c →
      ((s.chan c).head = none → s.jogWork k n = ignored) ∧
      ∀ h, (s.chan c).head = some h →
        ((s.link k).engaged = true → s.jogWork k n = s) ∧
        ∀ pmin pmax, (s.link k).engaged = false → h.mode ≠ .follow → s.span h.angle = some (pmin, pmax) → pmin ≤ pmax →
          let fs := s.frameSpan h.angle
          let wanted : Int := (((h.position / fs : Nat) : Int) + n) * fs
          s.jogWork k n =
            s.place c { h with
              mode := (match h.mode with
                | .clip ctx => .clip { ctx with running := false, endReached := false }
                | _ => .paused)
              speed := (match h.mode with
                | .clip ctx => if ctx.running then 0 else h.speed
                | .paused => h.speed
                | _ => 0)
              position := (max (pmin : Int) (min (pmax : Int) wanted)).toNat
              clamp := decide (wanted < pmin ∨ (pmax : Int) < wanted) }

/-- The action of each confirmed key. A mark key marks as its command does, and raises KEY_IGNORED where that is refused
(R66 to R70, R81). PLAY, PAUSE and LIVE act on the lever target, and are dropped with KEY_IGNORED without one or on an
IDLE one (R87, R93, R99 to R101, R119, R120). TAKE swaps PGM and PVW for station 0 and for the holder of the channel on
PVW (R158). CUE NEXT stages the cue of a running clip and takes it elsewhere, and raises KEY_IGNORED where the queue was
empty or there is no lever target (R124). ANGLE NEXT gives the selected channel the next angle in turn that has a span,
in CLIP one of the clip's, and raises KEY_IGNORED where there is none (R103, R104, R120). The clamp indication of a LIVE
channel after it is the model's choice (notes/assumptions/41.md). -/
def Obligations.KeysActOrRaiseKeyIgnored : Prop :=
  ∀ (s : State) (k : Station),
    let ignored := fun t : State => t.modLink k fun l => { l with alerts := { l.alerts with keyIgnored := 60 } }
    (((s.openClip k = none → s.freeId ≠ none) ∧ (∀ c, s.openClip k = some c → c.scansPending = 0) →
        s.keyAction k 0 = (s.takeMarkIn k).1) ∧
      (s.openClip k = none → s.freeId = none → s.keyAction k 0 = ignored s) ∧
      (∀ c, s.openClip k = some c → 0 < c.scansPending → s.keyAction k 0 = ignored s) ∧
      ((s.openClip k = none → s.freeId ≠ none) → s.keyAction k 1 = (s.takeMarkOut k).1) ∧
      (s.openClip k = none → s.freeId = none → s.keyAction k 1 = ignored s) ∧
      (s.hears k →
        exec (.markIn k) s = .next (s.inEvent fun u =>
          let marked := (u.counted k).takeMarkIn k
          marked.1.writeAck k (ackOf 1 marked.2)) ∧
        exec (.markOut k) s = .next (s.inEvent fun u =>
          let marked := (u.counted k).takeMarkOut k
          marked.1.writeAck k (ackOf 2 marked.2)))) ∧
    (s.leverTarget k = none →
      s.keyAction k 2 = ignored s ∧ s.keyAction k 3 = ignored s ∧ s.keyAction k 4 = ignored s ∧
        s.keyAction k 6 = ignored s) ∧
    (∀ c, s.leverTarget k = some c →
      ((s.chan c).head = none →
        s.keyAction k 2 = ignored s ∧ s.keyAction k 3 = ignored s ∧ s.keyAction k 4 = ignored s) ∧
      (∀ h, (s.chan c).head = some h →
        let armed := if (s.link k).engaged then s.modLink k fun l => { l with armed := false } else s
        let base := fun m : SpeedMode => match m with
          | .fixed v => v
          | .fit _ q _ _ => (q : Int)
        ((∀ ctx, h.mode ≠ .clip ctx) →
          s.keyAction k 2 = armed.steer c fun h => { h with mode := .play, speed := (s.setting k).playPreset }) ∧
        (∀ ctx, h.mode = .clip ctx →
          (ctx.running = true → s.keyAction k 2 = armed ∧
            s.keyAction k 3 = s.steer c fun h =>
              { h with mode := .clip { ctx with running := false }, speed := 0 }) ∧
          (ctx.running = false → s.keyAction k 3 = s ∧
            s.keyAction k 2 = armed.steer c fun h =>
              { h with mode := .clip { ctx with running := true, endReached := false }, speed := base ctx.mode })) ∧
        (h.mode = .play ∨ h.mode = .shuttle ∨ h.mode = .live →
          s.keyAction k 3 = s.steer c fun h => { h with mode := .paused, speed := 0 }) ∧
        (h.mode = .paused → s.keyAction k 3 = s) ∧
        ∀ pmin pmax, s.span h.angle = some (pmin, pmax) →
          s.keyAction k 4 =
            (s.leaveClip c).place c { h with mode := .live, position := pmax, speed := 720, clamp := false }) ∧
      let running := ∃ h ctx, (s.chan c).head = some h ∧ h.mode = .clip ctx ∧ ctx.running = true
      let unstaged := s.modChan c fun ch => { ch with staged := false }
      (running → s.keyAction k 6 = s.modChan c fun ch => { ch with staged := true }) ∧
      (¬ running → (s.chan c).cues ≠ [] → s.keyAction k 6 = (unstaged.takeNextCue c).1) ∧
      (¬ running → (s.chan c).cues = [] → s.keyAction k 6 = ignored unstaged)) ∧
    ((k = 0 ∨ s.holder s.arbiter.pvw = some k →
        s.keyAction k 5 =
          { s with arbiter := { s.arbiter with pgm := s.arbiter.pvw, pvw := s.arbiter.pgm } }) ∧
      (k ≠ 0 → s.holder s.arbiter.pvw ≠ some k → s.keyAction k 5 = ignored s)) ∧
    ((s.link k).selected = none → s.keyAction k 7 = ignored s) ∧
    ∀ c, (s.link k).selected = some c →
      ((s.chan c).head = none → s.keyAction k 7 = ignored s) ∧
      ∀ h, (s.chan c).head = some h →
        let qualifies := fun a : Angle => a ≠ h.angle ∧ s.span a ≠ none ∧
          ∀ ctx, h.mode = .clip ctx → ∃ clip, s.findClip ctx.clipId ctx.serial = some clip ∧ a ∈ clip.angles
        let turn := fun a : Angle => (a.val + 8 - h.angle.val) % 8
        ((∀ a, ¬ qualifies a) → s.keyAction k 7 = ignored s) ∧
        ∀ a pmin pmax, qualifies a → (∀ b, qualifies b → turn a ≤ turn b) → s.span a = some (pmin, pmax) →
          pmin ≤ pmax →
          (s.isFollower c = false →
            let position := if h.mode = .live then pmax else max pmin (min pmax h.position)
            s.keyAction k 7 =
              s.place c { h with
                angle := a, position := position
                clamp := if h.mode = .live then false else decide (h.position < pmin ∨ pmax < h.position)
                mode := (match h.mode with
                  | .clip ctx => .clip { ctx with endReached := ctx.endReached && decide (position = h.position) }
                  | m => m) }) ∧
          ∀ l hl, (s.chan c).gang = .follower l → (s.chan l).head = some hl → (∀ ctx, h.mode ≠ .clip ctx) →
            s.keyAction k 7 =
              s.writeHead c { h with
                angle := a
                position := if hl.mode = .live then pmax else max pmin (min pmax hl.position)
                clamp := if hl.mode = .live then false else decide (hl.position < pmin ∨ pmax < hl.position) }

/-- The handshake: the first frame of a session only synchronises the toggle; a new toggle with a command message starts
it, as the command row it spells, or as UNKNOWN_COMMAND; any other frame starts nothing (R168, R169). While a CLAIM waits,
BUSY comes before either. Arguments of another number than the kind takes spell no row, nor does a mode or filter code
outside its row: BAD_ARGUMENT, not counted as taken (R169, R187); a STATS block outside 1 to 5 is taken and refused
(R182). At which check a code or a block is refused is deduced (notes/assumptions/15.md). That a command row starts as a
message that its frame's handshake has let through is the model's choice (notes/assumptions/5.md). The empty result data
of these refusals are deduced (notes/assumptions/10.md). -/
def Obligations.NewTogglesStartTheirCommand : Prop :=
  (∀ (s : State) (k : Station) (moment : Nat) (order : List Reaction) (f : DeskFrame),
    ((s.link k).toggleSynced = false →
      s.handshake k moment order f = s.modLink k fun l => { l with toggleSeen := f.toggle, toggleSynced := true }) ∧
    ((s.link k).toggleSynced = true → f.toggle = (s.link k).toggleSeen ∨ f.command = none →
      s.handshake k moment order f = s) ∧
    ∀ code args, (s.link k).toggleSynced = true → f.toggle ≠ (s.link k).toggleSeen → f.command = some (code :: args) →
      let t := s.modLink k fun l => { l with toggleSeen := f.toggle }
      (∀ i kind, CommandKind.ofCode? code.toNat = some kind → decodeMessage k moment order kind args = .row i →
        s.handshake k moment order f = startRow i t) ∧
      (CommandKind.ofCode? code.toNat = none → s.pendingClaim k = none →
        s.handshake k moment order f = t.writeAck k
          { state := .done, kind := some code.toNat, result := some .unknownCommand, data := [] }) ∧
      let busy := (t.modLinkCounts k fun n => { n with busyAnswers := min (n.busyAnswers + 1) 4294967295 }).writeAck k
        { state := .done, kind := some code.toNat, result := some .busy, data := [] }
      let waits := s.pendingClaim k ≠ none
      (CommandKind.ofCode? code.toNat = none → waits → s.handshake k moment order f = busy) ∧
      ∀ kind, CommandKind.ofCode? code.toNat = some kind → (s.link k).state ≠ .off →
        (decodeMessage k moment order kind args = .unfit →
          (waits → kind ≠ .cancel → s.handshake k moment order f = busy) ∧
          (¬ waits ∨ kind = .cancel → (kind.isReserved = false ∨ k = 0) →
            s.handshake k moment order f = t.answered k kind .badArgument []) ∧
          (¬ waits → kind.isReserved = true → k ≠ 0 →
            s.handshake k moment order f = t.answered k kind .notAllowed [])) ∧
        (decodeMessage k moment order kind args = .unknownBlock →
          (waits → s.handshake k moment order f = busy) ∧
          (¬ waits → k = 0 → s.handshake k moment order f = (t.counted k).answered k .stats .badArgument []) ∧
          (¬ waits → k ≠ 0 → s.handshake k moment order f = t.answered k .stats .notAllowed []))) ∧
  (∀ (k : Station) (moment : Nat) (order : List Reaction),
    let unfit := fun (kind : CommandKind) (args : List Byte) => decodeMessage k moment order kind args = .unfit
    (∀ kind args,
      let takes : List Nat := match kind with
        | .markIn | .markOut | .cancel | .take | .restart => [0]
        | .pause | .live | .unload | .black | .unblack | .ungang | .cueClear | .cueNext | .claim | .release | .select
        | .cut | .preview | .forceRelease | .recStart | .recStop => [1]
        | .angle | .list | .houseRate => [2]
        | .linkSet | .stats => [3]
        | .protect | .unprotect | .delete | .play | .angleSet => [4]
        | .tagAdd | .tagRemove | .hero => [5]
        | .load => [6]
        | .stationSet => [7]
        | .loadClip | .cueAdd => [9]
        | .curveSet => [22]
        | .gang => [2, 3, 4]
        | .label => [5 + ((args.getD 4 0).toNat * 7 + 7) / 8]
      args.length ∉ takes → unfit kind args) ∧
    (∀ c hi lo i1 i0 s1 s0 a code : Byte, 2 < code.toNat →
      unfit .play [c, code, hi, lo] ∧ unfit .loadClip [c, i1, i0, s1, s0, a, code, hi, lo] ∧
      unfit .cueAdd [c, i1, i0, s1, s0, a, code, hi, lo] ∧ unfit .list [code, hi]) ∧
    ∀ block index option : Byte,
      decodeMessage k moment order .stats [block, index, option] = .unknownBlock ↔ block = 0 ∨ 5 < block.toNat) ∧
  ∀ (i : Instr) (s : State), i.sender ≠ none → s.resetHeld = false → s.clips.raised = false →
    exec i s = .next (s.inEvent (startRow i))

/-- The checks at the start of a command: nothing in OFF; BUSY, counted, with a pending CLAIM; NOT_ALLOWED for the
commands reserved to station 0; and for a command on a channel, BAD_ARGUMENT outside 1 to 4, and NOT_CLAIMED or CLAIMED by
the claim check; a LABEL of more than 25 characters, a GANG of no or more than 3 followers and a CURVE_SET of another
number of points than 11 do not fit their kind: BAD_ARGUMENT, not counted as taken (R146, R161, R169, R187). That a link
in OFF starts no command row is the model's choice (notes/assumptions/5.md). The empty result data of these refusals are
deduced (notes/assumptions/10.md). -/
def Obligations.CommandsAreCheckedAtTheirStart : Prop :=
  ∀ (s : State) (i : Instr) (stn : Station), i.sender = some stn → s.resetHeld = false → s.clips.raised = false →
    ((s.link stn).state = .off → exec i s = .next s) ∧
    ((s.link stn).state ≠ .off → s.pendingClaim stn = none →
      (∀ id serial text, i = .label stn id serial text → 25 < text.length →
        exec i s = .next (s.answered stn .label .badArgument [])) ∧
      (∀ leader followers, i = .gang stn leader followers → followers = [] ∨ 3 < followers.length →
        exec i s = .next (s.answered stn .gang .badArgument [])) ∧
      ∀ points, i = .curveSet stn points → stn = 0 → points.length ≠ 11 →
        exec i s = .next (s.answered stn .curveSet .badArgument [])) ∧
    ((s.link stn).state ≠ .off → ∀ kind args, encodeMessage i = some (kind, args) →
      (s.pendingClaim stn ≠ none → kind ≠ .cancel →
        exec i s =
          .next ((s.modLinkCounts stn fun n => { n with busyAnswers := min (n.busyAnswers + 1) 4294967295 }).answered stn
            kind .busy [])) ∧
      (s.pendingClaim stn = none → stn ≠ 0 →
        kind ∈ [.forceRelease, .angleSet, .recStart, .recStop, .houseRate, .curveSet, .linkSet, .stationSet, .stats,
          CommandKind.restart] →
        exec i s = .next (s.answered stn kind .notAllowed [])) ∧
      (s.pendingClaim stn = none → ∀ channel, Instr.onChannel? i = some channel →
        (chanOf? channel.toNat = none → exec i s = .next ((s.counted stn).answered stn kind .badArgument [])) ∧
        ∀ c, chanOf? channel.toNat = some c →
          (stn ≠ 0 → s.holder c ≠ some stn →
            exec i s = .next ((s.counted stn).answered stn kind .notClaimed [])) ∧
          (stn = 0 → s.holder c ≠ none → s.holder c ≠ some 0 →
            exec i s = .next ((s.counted stn).answered stn kind .claimed []))))

/-- A report is built and sent at a house frame unless the link is in OFF or still transmitting, which is a report skip;
it carries what R171 lists, and then each alert timer above 0 is lowered by 1 (R159, R171, R172). The number of free
bytes drawn is the model's own (notes/assumptions/9.md). -/
def Obligations.ReportsAreSentOrSkipped : Prop :=
  ∀ (s : State) (k : Station),
    let lowered := fun t : State => t.modLink k fun l => { l with alerts := l.alerts.lower }
    ((s.link k).state = .off → s.reportWork k = lowered s) ∧
    ((s.link k).state ≠ .off → (s.link k).tx ≠ none →
      s.reportWork k = lowered (s.modLinkCounts k fun n =>
        { n with reportSkips := min (n.reportSkips + 1) 4294967295 })) ∧
    (∀ alert, ((s.link k).alerts.lower).get alert = (s.link k).alerts.get alert - 1) ∧
    ((s.link k).state ≠ .off → (s.link k).tx = none →
      let r := s.buildReport k (s.listingStep k).1
      s.reportWork k = lowered
        { (s.modLink k fun l =>
            { l with tx := some { report := r, divisor := l.divisor }, listing := (s.listingStep k).2
                     counts := { l.counts with reportsSent := min (l.counts.reportsSent + 1) 4294967295 } }) with
          draws := s.draws + 1 } ∧
        r.station = k ∧ r.houseLow = s.timeBase.houseCount % 65536 ∧ r.ref = s.timeBase.ref ∧
        r.pgm = s.arbiter.pgm ∧ r.pvw = s.arbiter.pvw ∧ (∀ c, r.holders.get c = s.holder c) ∧
        r.selected = (s.link k).selected ∧ r.openClip = (s.openClip k).map (·.id) ∧
        r.generation = s.clips.generation ∧ r.ackToggle = (s.link k).toggleSeen ∧ r.ack = (s.link k).ack ∧
        r.alerts = (s.link k).alerts ∧ r.listing = (s.listingStep k).1 ∧
        r.summaries.map (·.channel) =
          [0, 1, 2, 3].filter (fun c => s.holder c = some k ∨ k = 0 ∧ s.holder c = none) ∧
        ∀ m ∈ r.summaries,
          m.head = (s.chan m.channel).head ∧ m.cueCount = (s.chan m.channel).cues.length ∧
          m.staged = (s.chan m.channel).staged ∧ m.black = (s.chan m.channel).black ∧
          m.frameValid = (s.chan m.channel).frameValid ∧ m.gang = (s.chan m.channel).gang)

/-- The fixed part of a report payload is 24 bytes; the full report needs 29 bytes, the result data, 13 bytes a summary
and 48 for a listing record. Above 148 the result data is left out, with the withheld bit and its length still carried;
the ack area is unchanged, and the report is at most 148 bytes (R186). -/
def Obligations.ReportsFitIn148Bytes : Prop :=
  ∀ (s : State) (k : Station) (item : ListingItem), (s.link k).ack.data.length ≤ 48 →
    let r := s.buildReport k item
    let record := match item with
      | .record _ => 48
      | _ => 0
    let full := 29 + (s.link k).ack.data.length + 13 * r.summaries.length + record
    (r.withheld = true ↔ 148 < full) ∧ r.ack = (s.link k).ack ∧ r.listing = item ∧
    ((∀ c, item ≠ .record c) → r.withheld = false) ∧
    (r.withheld = false → (r.payload.drop 24).take (s.link k).ack.data.length = (s.link k).ack.data) ∧
    r.payload.length = 24 + (if r.withheld then 0 else (s.link k).ack.data.length) + 13 * r.summaries.length + record ∧
    r.bytes.length = (if r.withheld then full - (s.link k).ack.data.length else full) ∧ r.bytes.length ≤ 148 ∧
    (r.payload[2]?.map fun b => b.getLsbD 7) = some r.withheld ∧
    r.payload[17]? = some (BitVec.ofNat 8 (s.link k).ack.data.length)

/-! ### Configuration, counters and restart -/

/-- CURVE_SET of eleven points that are not negative, begin at 0 and never fall replaces the curve, each point above 2,880
taken as 2,880, and any other is refused whole (R179); STATION_SET takes the five settings, clamped, for the station it
names, and refuses a station outside 0 to 4 and an empty mark set (R181). The empty result data of BAD_ARGUMENT are
deduced (notes/assumptions/10.md), and 1 for a blend of yes is the model's choice (notes/assumptions/49.md). -/
def Obligations.CurveAndSettingsAreTaken : Prop :=
  ∀ s : State, s.hears 0 →
    (∀ points : List (BitVec 16), points.length = 11 →
      let c := fun i : Nat => (points.getD i 0).toInt
      let fits := (∀ i, i < 11 → 0 ≤ c i) ∧ c 0 = 0 ∧ ∀ i, i < 10 → c i ≤ c (i + 1)
      (¬ fits → exec (.curveSet 0 points) s = .next ((s.counted 0).answered 0 .curveSet .badArgument [])) ∧
      (fits →
        let taken : Vector Nat 11 := Vector.ofFn fun i => min 2880 (c i.val).toNat
        CurveInRange taken ∧
        exec (.curveSet 0 points) s =
          .next (({ s.counted 0 with curve := taken } : State).answered 0 .curveSet .ok
            ((List.range 11).flatMap fun i =>
              [BitVec.ofNat 8 (min 2880 (c i).toNat / 256), BitVec.ofNat 8 (min 2880 (c i).toNat)])))) ∧
    ∀ (target markSet : Byte) (preroll preset : BitVec 16) (blend : Byte),
      (5 ≤ target.toNat ∨ markSet = 0 →
        exec (.stationSet 0 target markSet preroll preset blend) s =
          .next ((s.counted 0).answered 0 .stationSet .badArgument [])) ∧
      ∀ k : Station, target.toNat = k.val → markSet ≠ 0 →
        let angles := allAngles.filter fun a => markSet.getLsbD a.val
        let p := max 1 (min 3600 preroll.toNat)
        let v : Int := max (-2880) (min 2880 preset.toInt)
        exec (.stationSet 0 target markSet preroll preset blend) s =
          .next (({ s.counted 0 with settings := vmod s.settings k fun _ =>
              { markSet := angles, preroll := p, playPreset := v, blend := blend != 0 } } : State).answered 0 .stationSet
            .ok ([target, markSet, BitVec.ofNat 8 (p / 256), BitVec.ofNat 8 p] ++
              [BitVec.ofNat 8 ((v % 65536).toNat / 256), BitVec.ofNat 8 (v % 65536).toNat, if blend = 0 then 0 else 1]))

/-- STATS reads the counts of its block in the order of its table, with the other values of its layout, and clears the
counts after the reading with the clear option, and nothing else; a recorder part 1 reads the record context and clears
nothing; an index or a part out of range gives BAD_ARGUMENT (R10, R32, R57, R130, R174, R182, R187). The bytes of an
absent number are free (notes/assumptions/9.md). That 1 stands for PRESENT is the model's choice
(notes/assumptions/38.md), that no selected channel reads as 0 is deduced (notes/assumptions/34.md), and so is that the
STATS of link 0 reads and clears itself as counted, as a STATS that is refused is (notes/assumptions/29.md and 15.md). The
empty result data of a refused STATS are deduced (notes/assumptions/10.md), and so are the codes of the record state and
the link state (notes/assumptions/49.md). 1 for an enable of yes (notes/assumptions/49.md) and 0 for the bits that no
table names in the flag and presence bytes (notes/assumptions/47.md) are the model's choice. -/
def Obligations.StatsReadAndClearTheirCounts : Prop :=
  ∀ (s : State) (index : Byte) (clear : Bool), s.hears 0 →
    let u := s.counted 0
    let four := fun counts : List Nat => counts.flatMap fun n =>
      [BitVec.ofNat 8 (n / 16777216), BitVec.ofNat 8 (n / 65536), BitVec.ofNat 8 (n / 256), BitVec.ofNat 8 n]
    let five := fun (place : Nat) (n : Option Nat) => match n with
      | some x => beBytes 5 x
      | none => [0, 1, 2, 3, 4].map fun i => Config.unstatedByte (.absentFrame place i) (s.draws + 1)
    let answer := fun (i : Instr) (cleared : State) (data : List Byte) =>
      exec i s = .next ((if clear then cleared else u).answered 0 .stats .ok data)
    let refused := fun i : Instr => exec i s = .next (u.answered 0 .stats .badArgument [])
    (index = 0 →
      answer (.statsTimeBase 0 index clear false)
        { u with timeBase := { u.timeBase with lossCount := 0, relockCount := 0, unqualifiedCount := 0 } }
        (four [s.timeBase.lossCount, s.timeBase.relockCount, s.timeBase.unqualifiedCount]) ∧
      answer (.statsRecorder 0 index clear false) { u with unknownAngles := 0 } (four [s.unknownAngles]) ∧
      answer (.statsPageStore 0 index clear false) { u with pages := { u.pages with mismatches := 0 } }
        (four [s.pages.mismatches] ++ beBytes 2 s.pages.pool.length ++ beBytes 2 s.pages.scans.length) ∧
      answer (.statsChannel 0 index clear false) { u with unmatchedPartWide := 0 } (four [s.unmatchedPartWide])) ∧
    (∀ a, angleOf? index.toNat = some a →
      (let n := (s.recorder a).counts
       answer (.statsRecorder 0 index clear false) (u.modRecCounts a fun _ => .zero)
        (four [n.grants, n.formatRefusals, n.notRecordingRefusals, n.staleRefusals, n.overrunRefusals, n.starvedRefusals,
          n.missing, n.completions, n.writeFaults, n.portFaults, n.absences])) ∧
      (let r := s.recorder a
       exec (.statsRecorder 0 index clear true) s = .next (u.answered 0 .stats .ok
        ([(match r.state with
            | .stopped => 0
            | .recording => 1
            | .halted => 2), BitVec.ofNat 8 r.rateMultiple] ++ beBytes 2 r.quota ++
          [if r.present then 1 else 0,
            (match r.newest, r.liveEdge with
              | none, none => 0
              | some _, none => 1
              | none, some _ => 2
              | some _, some _ => 3)] ++ five 0 r.newest ++ five 1 r.liveEdge))) ∧
      answer (.statsPageStore 0 index clear false)
        { u with pages := { u.pages with
            reclaimed := vmod u.pages.reclaimed a fun _ => 0, starvations := vmod u.pages.starvations a fun _ => 0 } }
        (four [s.pages.reclaimed.get a, s.pages.starvations.get a] ++ beBytes 2 (s.pageList a).length ++
          beBytes 2 (((s.fillingPage a).map (·.number)).getD 65535) ++
          (if s.pageList a = [] then 0 else 1) :: five 0 ((s.pageList a).head?.map (·.firstFrame)))) ∧
    (∀ c, chanOf? index.toNat = some c →
      let ch := s.chan c
      let n := ch.counts
      let tag := fun i : Nat => BitVec.ofNat 8 ((ch.inFlight[i]?.map (·.tag)).getD 0)
      answer (.statsChannel 0 index clear false) (u.modChanCounts c fun _ => .zero)
        (four [n.issued, n.lateSkips, n.unshown, n.readFaults, n.stale, n.unmatched, n.fitLimited, n.cueSkips] ++
          [BitVec.ofNat 8 ch.inFlight.length, tag 0, tag 1, BitVec.ofNat 8 ch.nextTag,
            (match ch.lastShown with
              | some t => BitVec.ofNat 8 t
              | none => Config.unstatedByte .lastShownTag (s.draws + 1)),
            BitVec.ofNat 8 (ch.frameValid.toNat + 2 * ch.lastShown.isSome.toNat)])) ∧
    (∀ k : Station, index.toNat = k.val →
      let n := (u.link k).counts
      answer (.statsLink 0 index clear false) (u.modLinkCounts k fun _ => .zero)
        (four [n.accepted, n.formatFaults, n.crcFaults, n.mismatches, n.lossEntries, n.graceExpiries, n.commandsTaken,
            n.busyAnswers, n.reportsSent, n.reportSkips] ++
          [(match (s.link k).state with
            | .off => 0
            | .down => 1
            | .up => 2
            | .lost => 3), if (s.link k).enabled then 1 else 0, BitVec.ofNat 8 (s.link k).divisor,
            (match (s.link k).selected with
              | some c => BitVec.ofNat 8 (c.val + 1)
              | none => 0)])) ∧
    (index ≠ 0 → refused (.statsTimeBase 0 index clear false)) ∧
    (8 < index.toNat → refused (.statsRecorder 0 index clear false) ∧ refused (.statsRecorder 0 index clear true) ∧
      refused (.statsPageStore 0 index clear false)) ∧
    (4 < index.toNat → refused (.statsChannel 0 index clear false) ∧ refused (.statsLink 0 index clear false)) ∧
    refused (.statsTimeBase 0 index clear true) ∧ refused (.statsPageStore 0 index clear true) ∧
    refused (.statsChannel 0 index clear true) ∧ refused (.statsLink 0 index clear true) ∧
    (index = 0 → refused (.statsRecorder 0 index clear true))

/-- RESTART sets what section 10.6 sets and keeps what it keeps: channels IDLE with their tags and counts, their waiting
requests withdrawn, no anchor pin and no fetch hold, no claims, PGM 1 and PVW 2, every enabled link in DOWN with its
session values, and its own acknowledgement on link 0. The clip table, the scan queue and the page store's counts stay,
but that the channels leave CLIP: use counts are 0, a RETIRING clip is deleted, and the generation then rises by 1 (R11,
R34, R59, R84, R112, R145, R160, R175, R183). What is a waiting request, and the order of the count and the answer, are
deduced (notes/assumptions/28.md and 29.md), and so is that frames in reception and reports in transmission go on
(notes/assumptions/45.md); the order in which several clips are deleted is the model's choice (notes/assumptions/39.md). -/
def Obligations.RestartReturnsTheStationSide : Prop :=
  ∀ s : State, s.hears 0 →
    ∃ t, exec (.restart 0) s = .next t ∧
      t.timeBase = s.timeBase ∧ t.recorders = s.recorders ∧ t.unknownAngles = s.unknownAngles ∧
      t.ingestOut = s.ingestOut ∧ t.unmatchedPartWide = s.unmatchedPartWide ∧
      t.curve = s.curve ∧ t.settings = s.settings ∧ t.pages.pool = s.pages.pool ∧
      (∀ a, (t.pageList a).map (fun p => (p.number, p.state, p.firstFrame, p.count, p.faulted, p.clipHolds, p.writeHolds)) =
        (s.pageList a).map fun p => (p.number, p.state, p.firstFrame, p.count, p.faulted, p.clipHolds, p.writeHolds)) ∧
      (∀ a, ∀ p ∈ t.pageList a, p.anchorPins = 0 ∧ p.fetchHolds = 0) ∧
      (∀ c, t.chan c =
        { head := none, gang := .none, black := false, cues := [], staged := false, inFlight := []
          nextTag := (s.chan c).nextTag, lastShown := (s.chan c).lastShown, frameValid := false
          counts := (s.chan c).counts }) ∧
      (∀ c, t.holder c = none) ∧ (∀ k, t.pendingClaim k = none) ∧ (∀ k c, t.coolDownRun k c = none) ∧
      t.arbiter.pgm = 0 ∧ t.arbiter.pvw = 1 ∧
      (∀ k, k ≠ 0 → t.link k =
        if (s.link k).enabled then { (s.link k).session with state := .down } else s.link k) ∧
      ((s.link 0).enabled = true →
        t.link 0 =
          { (s.link 0).session with
            state := .down, toggleSeen := (s.link 0).toggleSeen
            ack := { state := .done, kind := some 88, result := some .ok, data := [] }
            counts := { (s.link 0).counts with
              commandsTaken := min ((s.link 0).counts.commandsTaken + 1) 4294967295 } }) ∧
      t.pages.reclaimed = s.pages.reclaimed ∧ t.pages.starvations = s.pages.starvations ∧
      t.pages.mismatches = s.pages.mismatches ∧
      t.fetchOut = s.fetchOut.filter (fun r => (s.chan r.channel).inFlight.all fun e => e.tag != r.tag) ∧
      t.clips.serialCounter = s.clips.serialCounter ∧ t.clips.openCounts = s.clips.openCounts ∧
      (let on := fun (clip : Clip) (c : Chan) => ((s.chan c).head.bind fun h => match h.mode with
          | .clip ctx => some (ctx.clipId, ctx.serial)
          | _ => none) == some (clip.id, clip.serial)
       (s.clips.clips.map fun clip => (clip.id, clip.serial)).Nodup →
       (∀ clip ∈ s.clips.clips, clip.useCount = ([0, 1, 2, 3].filter (on clip)).length) →
       ((∀ clip ∈ s.clips.clips, clip.state ≠ .retiring) →
         t.clips = { s.clips with clips := s.clips.clips.map fun clip => { clip with useCount := 0 }, raised := false } ∧
         t.pages.scans = s.pages.scans) ∧
       ((∀ clip ∈ s.clips.clips, clip.state = .retiring → 0 < clip.useCount) →
         (∀ clip ∈ t.clips.clips, clip.useCount = 0 ∧ clip.state ≠ .retiring) ∧
         (∀ clip ∈ s.clips.clips, clip.state = .retiring →
           t.clips.generation = (s.clips.generation + 1) % 65536 ∧
           (clip.isProtected = false → t.findClip clip.id clip.serial = none) ∧
           ∀ d, t.findClip clip.id clip.serial = some d → d = { clip with
             state := .deleting, useCount := 0, scansPending := d.scansPending }) ∧
         ∀ clip ∈ s.clips.clips, clip.state = .opened ∨ clip.state = .closing ∨ clip.state = .closed →
           ∃ d, t.findClip clip.id clip.serial = some d ∧
             { d with state := clip.state, useCount := clip.useCount, scansPending := clip.scansPending } = clip))

/-! ### Encodings -/

/-- Every well-formed command of a station, written as a message of 11.3 and read back, is the same command: no field of a
message is dropped (R187). -/
def Obligations.MessagesReadBack : Prop :=
  ∀ (i : Instr) (stn : Station) (kind : CommandKind) (args : List Byte),
    i.wf = true → i.sender = some stn → encodeMessage i = some (kind, args) →
    CommandKind.ofCode? kind.code = some kind ∧ args.length + 1 ≤ 28 ∧
    ∃ moment order, decodeMessage stn moment order kind args = .row i

/-- Every desk frame that fits, sent as the bytes of a link frame, is judged whole: accepted with the same fields, and with
the bytes after it left over; on the link of another station it is rejected as a mismatch (R162, R185). -/
def Obligations.DeskFramesReadBack : Prop :=
  ∀ (f : DeskFrame) (k j : Station) (rest : List RxByte), f.fits →
    (f.bytes k).head? = some 165 ∧
    judgeFrame k (cleanBytes (f.bytes k).tail ++ rest) = .accepted f rest ∧
    (j ≠ k → judgeFrame j (cleanBytes (f.bytes k).tail ++ rest) = .rejected .station)

/-! ### Limits that every step keeps -/

/-- From every state within the limits of the control side, a step ends within them: PGM and PVW differ, a link is in OFF
exactly when it is disabled, link 0 stays enabled, at most two fetches in flight with different tags, at most 12 cues, and a
lever curve as R89 states (R89, R122, R136, R157, R161, R180). -/
def Obligations.LimitsAreKeptByEveryStep : Prop := ∀ s t : State, s.InRange → step s = .next t → t.InRange

/-- The state after hardware reset is within the limits of the control side, and every page is in the free pool (R38, R58,
R112, R157, R160, R175). -/
def Obligations.ResetMeetsTheInvariants : Prop := State.reset.InRange ∧ State.reset.PagesPlaced
end

