-- ==== Sys2Proof/Laws/State.lean ====
section
/-! SUPPORT. Laws/State.lean: the small lemmas of the operations of Machine/Ops.lean: what each part of the state reads
after each update. -/

namespace Sys2Proof.Machine

/-! ### Elements of vectors -/

theorem vmod_get {α : Type} {n : Nat} (v : Vector α n) (i j : Fin n) (f : α → α) :
    (vmod v i f).get j = if j = i then f (v.get j) else v.get j := by
  unfold vmod
  simp only [Vector.get_eq_getElem, Vector.getElem_set, Fin.ext_iff, eq_comm (a := j.val)]
  split
  · next h => simp [h]
  · rfl

@[simp] theorem vmod_get_same {α : Type} {n : Nat} (v : Vector α n) (i : Fin n) (f : α → α) :
    (vmod v i f).get i = f (v.get i) := by simp [vmod_get]

theorem vmod_get_ne {α : Type} {n : Nat} (v : Vector α n) {i j : Fin n} (h : j ≠ i) (f : α → α) :
    (vmod v i f).get j = v.get j := by simp [vmod_get, h]

@[simp] theorem vector_map_get {α β : Type} {n : Nat} (v : Vector α n) (f : α → β) (i : Fin n) :
    (v.map f).get i = f (v.get i) := by simp [Vector.get_eq_getElem]

@[simp] theorem vector_replicate_get {α : Type} {n : Nat} (x : α) (i : Fin n) : (Vector.replicate n x).get i = x := by
  simp [Vector.get_eq_getElem]

@[simp] theorem vector_ofFn_get {α : Type} {n : Nat} (f : Fin n → α) (i : Fin n) : (Vector.ofFn f).get i = f i := by
  simp [Vector.get_eq_getElem]

theorem vector_ext_get {α : Type} {n : Nat} {v w : Vector α n} (h : ∀ i, v.get i = w.get i) : v = w := by
  apply Vector.ext
  intro i hi
  simpa [Vector.get_eq_getElem] using h ⟨i, hi⟩

/-! ### Parts by index after the update of a part -/

variable (s : State)

theorem recorder_modRecorder (a b : Angle) (f : RecContext → RecContext) :
    (s.modRecorder a f).recorder b = if b = a then f (s.recorder b) else s.recorder b := vmod_get ..

@[simp] theorem recorder_modRecorder_same (a : Angle) (f : RecContext → RecContext) :
    (s.modRecorder a f).recorder a = f (s.recorder a) := vmod_get_same ..

theorem pageList_modPageList (a b : Angle) (f : List Page → List Page) :
    (s.modPageList a f).pageList b = if b = a then f (s.pageList b) else s.pageList b := vmod_get ..

@[simp] theorem pageList_modPageList_same (a : Angle) (f : List Page → List Page) :
    (s.modPageList a f).pageList a = f (s.pageList a) := vmod_get_same ..

@[simp] theorem pageList_modPage (n : Nat) (f : Page → Page) (a : Angle) :
    (s.modPage n f).pageList a = (s.pageList a).map fun p => if p.number = n then f p else p := by
  simp [State.modPage, State.pageList]

theorem chan_modChan (c d : Chan) (f : Channel → Channel) :
    (s.modChan c f).chan d = if d = c then f (s.chan d) else s.chan d := vmod_get ..

@[simp] theorem chan_modChan_same (c : Chan) (f : Channel → Channel) : (s.modChan c f).chan c = f (s.chan c) :=
  vmod_get_same ..

theorem link_modLink (k j : Station) (f : Link → Link) :
    (s.modLink k f).link j = if j = k then f (s.link j) else s.link j := vmod_get ..

@[simp] theorem link_modLink_same (k : Station) (f : Link → Link) : (s.modLink k f).link k = f (s.link k) :=
  vmod_get_same ..

theorem holder_setHolder (c d : Chan) (h : Option Station) :
    (s.setHolder c h).holder d = if d = c then h else s.holder d := vmod_get ..

@[simp] theorem holder_setHolder_same (c : Chan) (h : Option Station) : (s.setHolder c h).holder c = h :=
  vmod_get_same ..

theorem pendingClaim_setPendingClaim (k j : Station) (p : Option PendingClaim) :
    (s.setPendingClaim k p).pendingClaim j = if j = k then p else s.pendingClaim j := vmod_get ..

@[simp] theorem pendingClaim_setPendingClaim_same (k : Station) (p : Option PendingClaim) :
    (s.setPendingClaim k p).pendingClaim k = p := vmod_get_same ..

/-! ### Fields and parts that an update leaves alone, each by unfolding -/

@[simp] theorem modRecorder_timeBase (a : Angle) (f : RecContext → RecContext) : (s.modRecorder a f).timeBase = s.timeBase := rfl
@[simp] theorem modRecorder_unknownAngles (a : Angle) (f : RecContext → RecContext) : (s.modRecorder a f).unknownAngles = s.unknownAngles := rfl
@[simp] theorem modRecorder_ingestOut (a : Angle) (f : RecContext → RecContext) : (s.modRecorder a f).ingestOut = s.ingestOut := rfl
@[simp] theorem modRecorder_pages (a : Angle) (f : RecContext → RecContext) : (s.modRecorder a f).pages = s.pages := rfl
@[simp] theorem modRecorder_clips (a : Angle) (f : RecContext → RecContext) : (s.modRecorder a f).clips = s.clips := rfl
@[simp] theorem modRecorder_channels (a : Angle) (f : RecContext → RecContext) : (s.modRecorder a f).channels = s.channels := rfl
@[simp] theorem modRecorder_unmatchedPartWide (a : Angle) (f : RecContext → RecContext) : (s.modRecorder a f).unmatchedPartWide = s.unmatchedPartWide := rfl
@[simp] theorem modRecorder_fetchOut (a : Angle) (f : RecContext → RecContext) : (s.modRecorder a f).fetchOut = s.fetchOut := rfl
@[simp] theorem modRecorder_arbiter (a : Angle) (f : RecContext → RecContext) : (s.modRecorder a f).arbiter = s.arbiter := rfl
@[simp] theorem modRecorder_links (a : Angle) (f : RecContext → RecContext) : (s.modRecorder a f).links = s.links := rfl
@[simp] theorem modRecorder_curve (a : Angle) (f : RecContext → RecContext) : (s.modRecorder a f).curve = s.curve := rfl
@[simp] theorem modRecorder_settings (a : Angle) (f : RecContext → RecContext) : (s.modRecorder a f).settings = s.settings := rfl
@[simp] theorem modRecorder_resetHeld (a : Angle) (f : RecContext → RecContext) : (s.modRecorder a f).resetHeld = s.resetHeld := rfl
@[simp] theorem modRecorder_draws (a : Angle) (f : RecContext → RecContext) : (s.modRecorder a f).draws = s.draws := rfl
@[simp] theorem modRecorder_pending (a : Angle) (f : RecContext → RecContext) : (s.modRecorder a f).pending = s.pending := rfl
@[simp] theorem pageList_modRecorder' (a : Angle) (f : RecContext → RecContext) (b : Angle) :
    (s.modRecorder a f).pageList b = s.pageList b := rfl
@[simp] theorem chan_modRecorder' (a : Angle) (f : RecContext → RecContext) (d : Chan) :
    (s.modRecorder a f).chan d = s.chan d := rfl
@[simp] theorem link_modRecorder' (a : Angle) (f : RecContext → RecContext) (j : Station) :
    (s.modRecorder a f).link j = s.link j := rfl
@[simp] theorem holder_modRecorder' (a : Angle) (f : RecContext → RecContext) (d : Chan) :
    (s.modRecorder a f).holder d = s.holder d := rfl
@[simp] theorem pendingClaim_modRecorder' (a : Angle) (f : RecContext → RecContext) (j : Station) :
    (s.modRecorder a f).pendingClaim j = s.pendingClaim j := rfl
@[simp] theorem setting_modRecorder' (a : Angle) (f : RecContext → RecContext) (j : Station) :
    (s.modRecorder a f).setting j = s.setting j := rfl
@[simp] theorem modRecCounts_timeBase (a : Angle) (f : RecCounts → RecCounts) : (s.modRecCounts a f).timeBase = s.timeBase := rfl
@[simp] theorem modRecCounts_unknownAngles (a : Angle) (f : RecCounts → RecCounts) : (s.modRecCounts a f).unknownAngles = s.unknownAngles := rfl
@[simp] theorem modRecCounts_ingestOut (a : Angle) (f : RecCounts → RecCounts) : (s.modRecCounts a f).ingestOut = s.ingestOut := rfl
@[simp] theorem modRecCounts_pages (a : Angle) (f : RecCounts → RecCounts) : (s.modRecCounts a f).pages = s.pages := rfl
@[simp] theorem modRecCounts_clips (a : Angle) (f : RecCounts → RecCounts) : (s.modRecCounts a f).clips = s.clips := rfl
@[simp] theorem modRecCounts_channels (a : Angle) (f : RecCounts → RecCounts) : (s.modRecCounts a f).channels = s.channels := rfl
@[simp] theorem modRecCounts_unmatchedPartWide (a : Angle) (f : RecCounts → RecCounts) : (s.modRecCounts a f).unmatchedPartWide = s.unmatchedPartWide := rfl
@[simp] theorem modRecCounts_fetchOut (a : Angle) (f : RecCounts → RecCounts) : (s.modRecCounts a f).fetchOut = s.fetchOut := rfl
@[simp] theorem modRecCounts_arbiter (a : Angle) (f : RecCounts → RecCounts) : (s.modRecCounts a f).arbiter = s.arbiter := rfl
@[simp] theorem modRecCounts_links (a : Angle) (f : RecCounts → RecCounts) : (s.modRecCounts a f).links = s.links := rfl
@[simp] theorem modRecCounts_curve (a : Angle) (f : RecCounts → RecCounts) : (s.modRecCounts a f).curve = s.curve := rfl
@[simp] theorem modRecCounts_settings (a : Angle) (f : RecCounts → RecCounts) : (s.modRecCounts a f).settings = s.settings := rfl
@[simp] theorem modRecCounts_resetHeld (a : Angle) (f : RecCounts → RecCounts) : (s.modRecCounts a f).resetHeld = s.resetHeld := rfl
@[simp] theorem modRecCounts_draws (a : Angle) (f : RecCounts → RecCounts) : (s.modRecCounts a f).draws = s.draws := rfl
@[simp] theorem modRecCounts_pending (a : Angle) (f : RecCounts → RecCounts) : (s.modRecCounts a f).pending = s.pending := rfl
@[simp] theorem pageList_modRecCounts' (a : Angle) (f : RecCounts → RecCounts) (b : Angle) :
    (s.modRecCounts a f).pageList b = s.pageList b := rfl
@[simp] theorem chan_modRecCounts' (a : Angle) (f : RecCounts → RecCounts) (d : Chan) :
    (s.modRecCounts a f).chan d = s.chan d := rfl
@[simp] theorem link_modRecCounts' (a : Angle) (f : RecCounts → RecCounts) (j : Station) :
    (s.modRecCounts a f).link j = s.link j := rfl
@[simp] theorem holder_modRecCounts' (a : Angle) (f : RecCounts → RecCounts) (d : Chan) :
    (s.modRecCounts a f).holder d = s.holder d := rfl
@[simp] theorem pendingClaim_modRecCounts' (a : Angle) (f : RecCounts → RecCounts) (j : Station) :
    (s.modRecCounts a f).pendingClaim j = s.pendingClaim j := rfl
@[simp] theorem setting_modRecCounts' (a : Angle) (f : RecCounts → RecCounts) (j : Station) :
    (s.modRecCounts a f).setting j = s.setting j := rfl
@[simp] theorem modPageList_timeBase (a : Angle) (f : List Page → List Page) : (s.modPageList a f).timeBase = s.timeBase := rfl
@[simp] theorem modPageList_recorders (a : Angle) (f : List Page → List Page) : (s.modPageList a f).recorders = s.recorders := rfl
@[simp] theorem modPageList_unknownAngles (a : Angle) (f : List Page → List Page) : (s.modPageList a f).unknownAngles = s.unknownAngles := rfl
@[simp] theorem modPageList_ingestOut (a : Angle) (f : List Page → List Page) : (s.modPageList a f).ingestOut = s.ingestOut := rfl
@[simp] theorem modPageList_clips (a : Angle) (f : List Page → List Page) : (s.modPageList a f).clips = s.clips := rfl
@[simp] theorem modPageList_channels (a : Angle) (f : List Page → List Page) : (s.modPageList a f).channels = s.channels := rfl
@[simp] theorem modPageList_unmatchedPartWide (a : Angle) (f : List Page → List Page) : (s.modPageList a f).unmatchedPartWide = s.unmatchedPartWide := rfl
@[simp] theorem modPageList_fetchOut (a : Angle) (f : List Page → List Page) : (s.modPageList a f).fetchOut = s.fetchOut := rfl
@[simp] theorem modPageList_arbiter (a : Angle) (f : List Page → List Page) : (s.modPageList a f).arbiter = s.arbiter := rfl
@[simp] theorem modPageList_links (a : Angle) (f : List Page → List Page) : (s.modPageList a f).links = s.links := rfl
@[simp] theorem modPageList_curve (a : Angle) (f : List Page → List Page) : (s.modPageList a f).curve = s.curve := rfl
@[simp] theorem modPageList_settings (a : Angle) (f : List Page → List Page) : (s.modPageList a f).settings = s.settings := rfl
@[simp] theorem modPageList_resetHeld (a : Angle) (f : List Page → List Page) : (s.modPageList a f).resetHeld = s.resetHeld := rfl
@[simp] theorem modPageList_draws (a : Angle) (f : List Page → List Page) : (s.modPageList a f).draws = s.draws := rfl
@[simp] theorem modPageList_pending (a : Angle) (f : List Page → List Page) : (s.modPageList a f).pending = s.pending := rfl
@[simp] theorem recorder_modPageList' (a : Angle) (f : List Page → List Page) (b : Angle) :
    (s.modPageList a f).recorder b = s.recorder b := rfl
@[simp] theorem chan_modPageList' (a : Angle) (f : List Page → List Page) (d : Chan) :
    (s.modPageList a f).chan d = s.chan d := rfl
@[simp] theorem link_modPageList' (a : Angle) (f : List Page → List Page) (j : Station) :
    (s.modPageList a f).link j = s.link j := rfl
@[simp] theorem holder_modPageList' (a : Angle) (f : List Page → List Page) (d : Chan) :
    (s.modPageList a f).holder d = s.holder d := rfl
@[simp] theorem pendingClaim_modPageList' (a : Angle) (f : List Page → List Page) (j : Station) :
    (s.modPageList a f).pendingClaim j = s.pendingClaim j := rfl
@[simp] theorem setting_modPageList' (a : Angle) (f : List Page → List Page) (j : Station) :
    (s.modPageList a f).setting j = s.setting j := rfl
@[simp] theorem modPage_timeBase (n : Nat) (f : Page → Page) : (s.modPage n f).timeBase = s.timeBase := rfl
@[simp] theorem modPage_recorders (n : Nat) (f : Page → Page) : (s.modPage n f).recorders = s.recorders := rfl
@[simp] theorem modPage_unknownAngles (n : Nat) (f : Page → Page) : (s.modPage n f).unknownAngles = s.unknownAngles := rfl
@[simp] theorem modPage_ingestOut (n : Nat) (f : Page → Page) : (s.modPage n f).ingestOut = s.ingestOut := rfl
@[simp] theorem modPage_clips (n : Nat) (f : Page → Page) : (s.modPage n f).clips = s.clips := rfl
@[simp] theorem modPage_channels (n : Nat) (f : Page → Page) : (s.modPage n f).channels = s.channels := rfl
@[simp] theorem modPage_unmatchedPartWide (n : Nat) (f : Page → Page) : (s.modPage n f).unmatchedPartWide = s.unmatchedPartWide := rfl
@[simp] theorem modPage_fetchOut (n : Nat) (f : Page → Page) : (s.modPage n f).fetchOut = s.fetchOut := rfl
@[simp] theorem modPage_arbiter (n : Nat) (f : Page → Page) : (s.modPage n f).arbiter = s.arbiter := rfl
@[simp] theorem modPage_links (n : Nat) (f : Page → Page) : (s.modPage n f).links = s.links := rfl
@[simp] theorem modPage_curve (n : Nat) (f : Page → Page) : (s.modPage n f).curve = s.curve := rfl
@[simp] theorem modPage_settings (n : Nat) (f : Page → Page) : (s.modPage n f).settings = s.settings := rfl
@[simp] theorem modPage_resetHeld (n : Nat) (f : Page → Page) : (s.modPage n f).resetHeld = s.resetHeld := rfl
@[simp] theorem modPage_draws (n : Nat) (f : Page → Page) : (s.modPage n f).draws = s.draws := rfl
@[simp] theorem modPage_pending (n : Nat) (f : Page → Page) : (s.modPage n f).pending = s.pending := rfl
@[simp] theorem recorder_modPage' (n : Nat) (f : Page → Page) (b : Angle) :
    (s.modPage n f).recorder b = s.recorder b := rfl
@[simp] theorem chan_modPage' (n : Nat) (f : Page → Page) (d : Chan) :
    (s.modPage n f).chan d = s.chan d := rfl
@[simp] theorem link_modPage' (n : Nat) (f : Page → Page) (j : Station) :
    (s.modPage n f).link j = s.link j := rfl
@[simp] theorem holder_modPage' (n : Nat) (f : Page → Page) (d : Chan) :
    (s.modPage n f).holder d = s.holder d := rfl
@[simp] theorem pendingClaim_modPage' (n : Nat) (f : Page → Page) (j : Station) :
    (s.modPage n f).pendingClaim j = s.pendingClaim j := rfl
@[simp] theorem setting_modPage' (n : Nat) (f : Page → Page) (j : Station) :
    (s.modPage n f).setting j = s.setting j := rfl
@[simp] theorem modChan_timeBase (c : Chan) (f : Channel → Channel) : (s.modChan c f).timeBase = s.timeBase := rfl
@[simp] theorem modChan_recorders (c : Chan) (f : Channel → Channel) : (s.modChan c f).recorders = s.recorders := rfl
@[simp] theorem modChan_unknownAngles (c : Chan) (f : Channel → Channel) : (s.modChan c f).unknownAngles = s.unknownAngles := rfl
@[simp] theorem modChan_ingestOut (c : Chan) (f : Channel → Channel) : (s.modChan c f).ingestOut = s.ingestOut := rfl
@[simp] theorem modChan_pages (c : Chan) (f : Channel → Channel) : (s.modChan c f).pages = s.pages := rfl
@[simp] theorem modChan_clips (c : Chan) (f : Channel → Channel) : (s.modChan c f).clips = s.clips := rfl
@[simp] theorem modChan_unmatchedPartWide (c : Chan) (f : Channel → Channel) : (s.modChan c f).unmatchedPartWide = s.unmatchedPartWide := rfl
@[simp] theorem modChan_fetchOut (c : Chan) (f : Channel → Channel) : (s.modChan c f).fetchOut = s.fetchOut := rfl
@[simp] theorem modChan_arbiter (c : Chan) (f : Channel → Channel) : (s.modChan c f).arbiter = s.arbiter := rfl
@[simp] theorem modChan_links (c : Chan) (f : Channel → Channel) : (s.modChan c f).links = s.links := rfl
@[simp] theorem modChan_curve (c : Chan) (f : Channel → Channel) : (s.modChan c f).curve = s.curve := rfl
@[simp] theorem modChan_settings (c : Chan) (f : Channel → Channel) : (s.modChan c f).settings = s.settings := rfl
@[simp] theorem modChan_resetHeld (c : Chan) (f : Channel → Channel) : (s.modChan c f).resetHeld = s.resetHeld := rfl
@[simp] theorem modChan_draws (c : Chan) (f : Channel → Channel) : (s.modChan c f).draws = s.draws := rfl
@[simp] theorem modChan_pending (c : Chan) (f : Channel → Channel) : (s.modChan c f).pending = s.pending := rfl
@[simp] theorem recorder_modChan' (c : Chan) (f : Channel → Channel) (b : Angle) :
    (s.modChan c f).recorder b = s.recorder b := rfl
@[simp] theorem pageList_modChan' (c : Chan) (f : Channel → Channel) (b : Angle) :
    (s.modChan c f).pageList b = s.pageList b := rfl
@[simp] theorem link_modChan' (c : Chan) (f : Channel → Channel) (j : Station) :
    (s.modChan c f).link j = s.link j := rfl
@[simp] theorem holder_modChan' (c : Chan) (f : Channel → Channel) (d : Chan) :
    (s.modChan c f).holder d = s.holder d := rfl
@[simp] theorem pendingClaim_modChan' (c : Chan) (f : Channel → Channel) (j : Station) :
    (s.modChan c f).pendingClaim j = s.pendingClaim j := rfl
@[simp] theorem setting_modChan' (c : Chan) (f : Channel → Channel) (j : Station) :
    (s.modChan c f).setting j = s.setting j := rfl
@[simp] theorem modHead_timeBase (c : Chan) (f : Playhead → Playhead) : (s.modHead c f).timeBase = s.timeBase := rfl
@[simp] theorem modHead_recorders (c : Chan) (f : Playhead → Playhead) : (s.modHead c f).recorders = s.recorders := rfl
@[simp] theorem modHead_unknownAngles (c : Chan) (f : Playhead → Playhead) : (s.modHead c f).unknownAngles = s.unknownAngles := rfl
@[simp] theorem modHead_ingestOut (c : Chan) (f : Playhead → Playhead) : (s.modHead c f).ingestOut = s.ingestOut := rfl
@[simp] theorem modHead_pages (c : Chan) (f : Playhead → Playhead) : (s.modHead c f).pages = s.pages := rfl
@[simp] theorem modHead_clips (c : Chan) (f : Playhead → Playhead) : (s.modHead c f).clips = s.clips := rfl
@[simp] theorem modHead_unmatchedPartWide (c : Chan) (f : Playhead → Playhead) : (s.modHead c f).unmatchedPartWide = s.unmatchedPartWide := rfl
@[simp] theorem modHead_fetchOut (c : Chan) (f : Playhead → Playhead) : (s.modHead c f).fetchOut = s.fetchOut := rfl
@[simp] theorem modHead_arbiter (c : Chan) (f : Playhead → Playhead) : (s.modHead c f).arbiter = s.arbiter := rfl
@[simp] theorem modHead_links (c : Chan) (f : Playhead → Playhead) : (s.modHead c f).links = s.links := rfl
@[simp] theorem modHead_curve (c : Chan) (f : Playhead → Playhead) : (s.modHead c f).curve = s.curve := rfl
@[simp] theorem modHead_settings (c : Chan) (f : Playhead → Playhead) : (s.modHead c f).settings = s.settings := rfl
@[simp] theorem modHead_resetHeld (c : Chan) (f : Playhead → Playhead) : (s.modHead c f).resetHeld = s.resetHeld := rfl
@[simp] theorem modHead_draws (c : Chan) (f : Playhead → Playhead) : (s.modHead c f).draws = s.draws := rfl
@[simp] theorem modHead_pending (c : Chan) (f : Playhead → Playhead) : (s.modHead c f).pending = s.pending := rfl
@[simp] theorem recorder_modHead' (c : Chan) (f : Playhead → Playhead) (b : Angle) :
    (s.modHead c f).recorder b = s.recorder b := rfl
@[simp] theorem pageList_modHead' (c : Chan) (f : Playhead → Playhead) (b : Angle) :
    (s.modHead c f).pageList b = s.pageList b := rfl
@[simp] theorem link_modHead' (c : Chan) (f : Playhead → Playhead) (j : Station) :
    (s.modHead c f).link j = s.link j := rfl
@[simp] theorem holder_modHead' (c : Chan) (f : Playhead → Playhead) (d : Chan) :
    (s.modHead c f).holder d = s.holder d := rfl
@[simp] theorem pendingClaim_modHead' (c : Chan) (f : Playhead → Playhead) (j : Station) :
    (s.modHead c f).pendingClaim j = s.pendingClaim j := rfl
@[simp] theorem setting_modHead' (c : Chan) (f : Playhead → Playhead) (j : Station) :
    (s.modHead c f).setting j = s.setting j := rfl
@[simp] theorem modChanCounts_timeBase (c : Chan) (f : ChanCounts → ChanCounts) : (s.modChanCounts c f).timeBase = s.timeBase := rfl
@[simp] theorem modChanCounts_recorders (c : Chan) (f : ChanCounts → ChanCounts) : (s.modChanCounts c f).recorders = s.recorders := rfl
@[simp] theorem modChanCounts_unknownAngles (c : Chan) (f : ChanCounts → ChanCounts) : (s.modChanCounts c f).unknownAngles = s.unknownAngles := rfl
@[simp] theorem modChanCounts_ingestOut (c : Chan) (f : ChanCounts → ChanCounts) : (s.modChanCounts c f).ingestOut = s.ingestOut := rfl
@[simp] theorem modChanCounts_pages (c : Chan) (f : ChanCounts → ChanCounts) : (s.modChanCounts c f).pages = s.pages := rfl
@[simp] theorem modChanCounts_clips (c : Chan) (f : ChanCounts → ChanCounts) : (s.modChanCounts c f).clips = s.clips := rfl
@[simp] theorem modChanCounts_unmatchedPartWide (c : Chan) (f : ChanCounts → ChanCounts) : (s.modChanCounts c f).unmatchedPartWide = s.unmatchedPartWide := rfl
@[simp] theorem modChanCounts_fetchOut (c : Chan) (f : ChanCounts → ChanCounts) : (s.modChanCounts c f).fetchOut = s.fetchOut := rfl
@[simp] theorem modChanCounts_arbiter (c : Chan) (f : ChanCounts → ChanCounts) : (s.modChanCounts c f).arbiter = s.arbiter := rfl
@[simp] theorem modChanCounts_links (c : Chan) (f : ChanCounts → ChanCounts) : (s.modChanCounts c f).links = s.links := rfl
@[simp] theorem modChanCounts_curve (c : Chan) (f : ChanCounts → ChanCounts) : (s.modChanCounts c f).curve = s.curve := rfl
@[simp] theorem modChanCounts_settings (c : Chan) (f : ChanCounts → ChanCounts) : (s.modChanCounts c f).settings = s.settings := rfl
@[simp] theorem modChanCounts_resetHeld (c : Chan) (f : ChanCounts → ChanCounts) : (s.modChanCounts c f).resetHeld = s.resetHeld := rfl
@[simp] theorem modChanCounts_draws (c : Chan) (f : ChanCounts → ChanCounts) : (s.modChanCounts c f).draws = s.draws := rfl
@[simp] theorem modChanCounts_pending (c : Chan) (f : ChanCounts → ChanCounts) : (s.modChanCounts c f).pending = s.pending := rfl
@[simp] theorem recorder_modChanCounts' (c : Chan) (f : ChanCounts → ChanCounts) (b : Angle) :
    (s.modChanCounts c f).recorder b = s.recorder b := rfl
@[simp] theorem pageList_modChanCounts' (c : Chan) (f : ChanCounts → ChanCounts) (b : Angle) :
    (s.modChanCounts c f).pageList b = s.pageList b := rfl
@[simp] theorem link_modChanCounts' (c : Chan) (f : ChanCounts → ChanCounts) (j : Station) :
    (s.modChanCounts c f).link j = s.link j := rfl
@[simp] theorem holder_modChanCounts' (c : Chan) (f : ChanCounts → ChanCounts) (d : Chan) :
    (s.modChanCounts c f).holder d = s.holder d := rfl
@[simp] theorem pendingClaim_modChanCounts' (c : Chan) (f : ChanCounts → ChanCounts) (j : Station) :
    (s.modChanCounts c f).pendingClaim j = s.pendingClaim j := rfl
@[simp] theorem setting_modChanCounts' (c : Chan) (f : ChanCounts → ChanCounts) (j : Station) :
    (s.modChanCounts c f).setting j = s.setting j := rfl
@[simp] theorem modLink_timeBase (k : Station) (f : Link → Link) : (s.modLink k f).timeBase = s.timeBase := rfl
@[simp] theorem modLink_recorders (k : Station) (f : Link → Link) : (s.modLink k f).recorders = s.recorders := rfl
@[simp] theorem modLink_unknownAngles (k : Station) (f : Link → Link) : (s.modLink k f).unknownAngles = s.unknownAngles := rfl
@[simp] theorem modLink_ingestOut (k : Station) (f : Link → Link) : (s.modLink k f).ingestOut = s.ingestOut := rfl
@[simp] theorem modLink_pages (k : Station) (f : Link → Link) : (s.modLink k f).pages = s.pages := rfl
@[simp] theorem modLink_clips (k : Station) (f : Link → Link) : (s.modLink k f).clips = s.clips := rfl
@[simp] theorem modLink_channels (k : Station) (f : Link → Link) : (s.modLink k f).channels = s.channels := rfl
@[simp] theorem modLink_unmatchedPartWide (k : Station) (f : Link → Link) : (s.modLink k f).unmatchedPartWide = s.unmatchedPartWide := rfl
@[simp] theorem modLink_fetchOut (k : Station) (f : Link → Link) : (s.modLink k f).fetchOut = s.fetchOut := rfl
@[simp] theorem modLink_arbiter (k : Station) (f : Link → Link) : (s.modLink k f).arbiter = s.arbiter := rfl
@[simp] theorem modLink_curve (k : Station) (f : Link → Link) : (s.modLink k f).curve = s.curve := rfl
@[simp] theorem modLink_settings (k : Station) (f : Link → Link) : (s.modLink k f).settings = s.settings := rfl
@[simp] theorem modLink_resetHeld (k : Station) (f : Link → Link) : (s.modLink k f).resetHeld = s.resetHeld := rfl
@[simp] theorem modLink_draws (k : Station) (f : Link → Link) : (s.modLink k f).draws = s.draws := rfl
@[simp] theorem modLink_pending (k : Station) (f : Link → Link) : (s.modLink k f).pending = s.pending := rfl
@[simp] theorem recorder_modLink' (k : Station) (f : Link → Link) (b : Angle) :
    (s.modLink k f).recorder b = s.recorder b := rfl
@[simp] theorem pageList_modLink' (k : Station) (f : Link → Link) (b : Angle) :
    (s.modLink k f).pageList b = s.pageList b := rfl
@[simp] theorem chan_modLink' (k : Station) (f : Link → Link) (d : Chan) :
    (s.modLink k f).chan d = s.chan d := rfl
@[simp] theorem holder_modLink' (k : Station) (f : Link → Link) (d : Chan) :
    (s.modLink k f).holder d = s.holder d := rfl
@[simp] theorem pendingClaim_modLink' (k : Station) (f : Link → Link) (j : Station) :
    (s.modLink k f).pendingClaim j = s.pendingClaim j := rfl
@[simp] theorem setting_modLink' (k : Station) (f : Link → Link) (j : Station) :
    (s.modLink k f).setting j = s.setting j := rfl
@[simp] theorem modLinkCounts_timeBase (k : Station) (f : LinkCounts → LinkCounts) : (s.modLinkCounts k f).timeBase = s.timeBase := rfl
@[simp] theorem modLinkCounts_recorders (k : Station) (f : LinkCounts → LinkCounts) : (s.modLinkCounts k f).recorders = s.recorders := rfl
@[simp] theorem modLinkCounts_unknownAngles (k : Station) (f : LinkCounts → LinkCounts) : (s.modLinkCounts k f).unknownAngles = s.unknownAngles := rfl
@[simp] theorem modLinkCounts_ingestOut (k : Station) (f : LinkCounts → LinkCounts) : (s.modLinkCounts k f).ingestOut = s.ingestOut := rfl
@[simp] theorem modLinkCounts_pages (k : Station) (f : LinkCounts → LinkCounts) : (s.modLinkCounts k f).pages = s.pages := rfl
@[simp] theorem modLinkCounts_clips (k : Station) (f : LinkCounts → LinkCounts) : (s.modLinkCounts k f).clips = s.clips := rfl
@[simp] theorem modLinkCounts_channels (k : Station) (f : LinkCounts → LinkCounts) : (s.modLinkCounts k f).channels = s.channels := rfl
@[simp] theorem modLinkCounts_unmatchedPartWide (k : Station) (f : LinkCounts → LinkCounts) : (s.modLinkCounts k f).unmatchedPartWide = s.unmatchedPartWide := rfl
@[simp] theorem modLinkCounts_fetchOut (k : Station) (f : LinkCounts → LinkCounts) : (s.modLinkCounts k f).fetchOut = s.fetchOut := rfl
@[simp] theorem modLinkCounts_arbiter (k : Station) (f : LinkCounts → LinkCounts) : (s.modLinkCounts k f).arbiter = s.arbiter := rfl
@[simp] theorem modLinkCounts_curve (k : Station) (f : LinkCounts → LinkCounts) : (s.modLinkCounts k f).curve = s.curve := rfl
@[simp] theorem modLinkCounts_settings (k : Station) (f : LinkCounts → LinkCounts) : (s.modLinkCounts k f).settings = s.settings := rfl
@[simp] theorem modLinkCounts_resetHeld (k : Station) (f : LinkCounts → LinkCounts) : (s.modLinkCounts k f).resetHeld = s.resetHeld := rfl
@[simp] theorem modLinkCounts_draws (k : Station) (f : LinkCounts → LinkCounts) : (s.modLinkCounts k f).draws = s.draws := rfl
@[simp] theorem modLinkCounts_pending (k : Station) (f : LinkCounts → LinkCounts) : (s.modLinkCounts k f).pending = s.pending := rfl
@[simp] theorem recorder_modLinkCounts' (k : Station) (f : LinkCounts → LinkCounts) (b : Angle) :
    (s.modLinkCounts k f).recorder b = s.recorder b := rfl
@[simp] theorem pageList_modLinkCounts' (k : Station) (f : LinkCounts → LinkCounts) (b : Angle) :
    (s.modLinkCounts k f).pageList b = s.pageList b := rfl
@[simp] theorem chan_modLinkCounts' (k : Station) (f : LinkCounts → LinkCounts) (d : Chan) :
    (s.modLinkCounts k f).chan d = s.chan d := rfl
@[simp] theorem holder_modLinkCounts' (k : Station) (f : LinkCounts → LinkCounts) (d : Chan) :
    (s.modLinkCounts k f).holder d = s.holder d := rfl
@[simp] theorem pendingClaim_modLinkCounts' (k : Station) (f : LinkCounts → LinkCounts) (j : Station) :
    (s.modLinkCounts k f).pendingClaim j = s.pendingClaim j := rfl
@[simp] theorem setting_modLinkCounts' (k : Station) (f : LinkCounts → LinkCounts) (j : Station) :
    (s.modLinkCounts k f).setting j = s.setting j := rfl
@[simp] theorem writeAck_timeBase (k : Station) (ack : AckArea) : (s.writeAck k ack).timeBase = s.timeBase := rfl
@[simp] theorem writeAck_recorders (k : Station) (ack : AckArea) : (s.writeAck k ack).recorders = s.recorders := rfl
@[simp] theorem writeAck_unknownAngles (k : Station) (ack : AckArea) : (s.writeAck k ack).unknownAngles = s.unknownAngles := rfl
@[simp] theorem writeAck_ingestOut (k : Station) (ack : AckArea) : (s.writeAck k ack).ingestOut = s.ingestOut := rfl
@[simp] theorem writeAck_pages (k : Station) (ack : AckArea) : (s.writeAck k ack).pages = s.pages := rfl
@[simp] theorem writeAck_clips (k : Station) (ack : AckArea) : (s.writeAck k ack).clips = s.clips := rfl
@[simp] theorem writeAck_channels (k : Station) (ack : AckArea) : (s.writeAck k ack).channels = s.channels := rfl
@[simp] theorem writeAck_unmatchedPartWide (k : Station) (ack : AckArea) : (s.writeAck k ack).unmatchedPartWide = s.unmatchedPartWide := rfl
@[simp] theorem writeAck_fetchOut (k : Station) (ack : AckArea) : (s.writeAck k ack).fetchOut = s.fetchOut := rfl
@[simp] theorem writeAck_arbiter (k : Station) (ack : AckArea) : (s.writeAck k ack).arbiter = s.arbiter := rfl
@[simp] theorem writeAck_curve (k : Station) (ack : AckArea) : (s.writeAck k ack).curve = s.curve := rfl
@[simp] theorem writeAck_settings (k : Station) (ack : AckArea) : (s.writeAck k ack).settings = s.settings := rfl
@[simp] theorem writeAck_resetHeld (k : Station) (ack : AckArea) : (s.writeAck k ack).resetHeld = s.resetHeld := rfl
@[simp] theorem writeAck_draws (k : Station) (ack : AckArea) : (s.writeAck k ack).draws = s.draws := rfl
@[simp] theorem writeAck_pending (k : Station) (ack : AckArea) : (s.writeAck k ack).pending = s.pending := rfl
@[simp] theorem recorder_writeAck' (k : Station) (ack : AckArea) (b : Angle) :
    (s.writeAck k ack).recorder b = s.recorder b := rfl
@[simp] theorem pageList_writeAck' (k : Station) (ack : AckArea) (b : Angle) :
    (s.writeAck k ack).pageList b = s.pageList b := rfl
@[simp] theorem chan_writeAck' (k : Station) (ack : AckArea) (d : Chan) :
    (s.writeAck k ack).chan d = s.chan d := rfl
@[simp] theorem holder_writeAck' (k : Station) (ack : AckArea) (d : Chan) :
    (s.writeAck k ack).holder d = s.holder d := rfl
@[simp] theorem pendingClaim_writeAck' (k : Station) (ack : AckArea) (j : Station) :
    (s.writeAck k ack).pendingClaim j = s.pendingClaim j := rfl
@[simp] theorem setting_writeAck' (k : Station) (ack : AckArea) (j : Station) :
    (s.writeAck k ack).setting j = s.setting j := rfl
@[simp] theorem setHolder_timeBase (c : Chan) (h : Option Station) : (s.setHolder c h).timeBase = s.timeBase := rfl
@[simp] theorem setHolder_recorders (c : Chan) (h : Option Station) : (s.setHolder c h).recorders = s.recorders := rfl
@[simp] theorem setHolder_unknownAngles (c : Chan) (h : Option Station) : (s.setHolder c h).unknownAngles = s.unknownAngles := rfl
@[simp] theorem setHolder_ingestOut (c : Chan) (h : Option Station) : (s.setHolder c h).ingestOut = s.ingestOut := rfl
@[simp] theorem setHolder_pages (c : Chan) (h : Option Station) : (s.setHolder c h).pages = s.pages := rfl
@[simp] theorem setHolder_clips (c : Chan) (h : Option Station) : (s.setHolder c h).clips = s.clips := rfl
@[simp] theorem setHolder_channels (c : Chan) (h : Option Station) : (s.setHolder c h).channels = s.channels := rfl
@[simp] theorem setHolder_unmatchedPartWide (c : Chan) (h : Option Station) : (s.setHolder c h).unmatchedPartWide = s.unmatchedPartWide := rfl
@[simp] theorem setHolder_fetchOut (c : Chan) (h : Option Station) : (s.setHolder c h).fetchOut = s.fetchOut := rfl
@[simp] theorem setHolder_links (c : Chan) (h : Option Station) : (s.setHolder c h).links = s.links := rfl
@[simp] theorem setHolder_curve (c : Chan) (h : Option Station) : (s.setHolder c h).curve = s.curve := rfl
@[simp] theorem setHolder_settings (c : Chan) (h : Option Station) : (s.setHolder c h).settings = s.settings := rfl
@[simp] theorem setHolder_resetHeld (c : Chan) (h : Option Station) : (s.setHolder c h).resetHeld = s.resetHeld := rfl
@[simp] theorem setHolder_draws (c : Chan) (h : Option Station) : (s.setHolder c h).draws = s.draws := rfl
@[simp] theorem setHolder_pending (c : Chan) (h : Option Station) : (s.setHolder c h).pending = s.pending := rfl
@[simp] theorem recorder_setHolder' (c : Chan) (h : Option Station) (b : Angle) :
    (s.setHolder c h).recorder b = s.recorder b := rfl
@[simp] theorem pageList_setHolder' (c : Chan) (h : Option Station) (b : Angle) :
    (s.setHolder c h).pageList b = s.pageList b := rfl
@[simp] theorem chan_setHolder' (c : Chan) (h : Option Station) (d : Chan) :
    (s.setHolder c h).chan d = s.chan d := rfl
@[simp] theorem link_setHolder' (c : Chan) (h : Option Station) (j : Station) :
    (s.setHolder c h).link j = s.link j := rfl
@[simp] theorem setting_setHolder' (c : Chan) (h : Option Station) (j : Station) :
    (s.setHolder c h).setting j = s.setting j := rfl
@[simp] theorem setPendingClaim_timeBase (k : Station) (p : Option PendingClaim) : (s.setPendingClaim k p).timeBase = s.timeBase := rfl
@[simp] theorem setPendingClaim_recorders (k : Station) (p : Option PendingClaim) : (s.setPendingClaim k p).recorders = s.recorders := rfl
@[simp] theorem setPendingClaim_unknownAngles (k : Station) (p : Option PendingClaim) : (s.setPendingClaim k p).unknownAngles = s.unknownAngles := rfl
@[simp] theorem setPendingClaim_ingestOut (k : Station) (p : Option PendingClaim) : (s.setPendingClaim k p).ingestOut = s.ingestOut := rfl
@[simp] theorem setPendingClaim_pages (k : Station) (p : Option PendingClaim) : (s.setPendingClaim k p).pages = s.pages := rfl
@[simp] theorem setPendingClaim_clips (k : Station) (p : Option PendingClaim) : (s.setPendingClaim k p).clips = s.clips := rfl
@[simp] theorem setPendingClaim_channels (k : Station) (p : Option PendingClaim) : (s.setPendingClaim k p).channels = s.channels := rfl
@[simp] theorem setPendingClaim_unmatchedPartWide (k : Station) (p : Option PendingClaim) : (s.setPendingClaim k p).unmatchedPartWide = s.unmatchedPartWide := rfl
@[simp] theorem setPendingClaim_fetchOut (k : Station) (p : Option PendingClaim) : (s.setPendingClaim k p).fetchOut = s.fetchOut := rfl
@[simp] theorem setPendingClaim_links (k : Station) (p : Option PendingClaim) : (s.setPendingClaim k p).links = s.links := rfl
@[simp] theorem setPendingClaim_curve (k : Station) (p : Option PendingClaim) : (s.setPendingClaim k p).curve = s.curve := rfl
@[simp] theorem setPendingClaim_settings (k : Station) (p : Option PendingClaim) : (s.setPendingClaim k p).settings = s.settings := rfl
@[simp] theorem setPendingClaim_resetHeld (k : Station) (p : Option PendingClaim) : (s.setPendingClaim k p).resetHeld = s.resetHeld := rfl
@[simp] theorem setPendingClaim_draws (k : Station) (p : Option PendingClaim) : (s.setPendingClaim k p).draws = s.draws := rfl
@[simp] theorem setPendingClaim_pending (k : Station) (p : Option PendingClaim) : (s.setPendingClaim k p).pending = s.pending := rfl
@[simp] theorem recorder_setPendingClaim' (k : Station) (p : Option PendingClaim) (b : Angle) :
    (s.setPendingClaim k p).recorder b = s.recorder b := rfl
@[simp] theorem pageList_setPendingClaim' (k : Station) (p : Option PendingClaim) (b : Angle) :
    (s.setPendingClaim k p).pageList b = s.pageList b := rfl
@[simp] theorem chan_setPendingClaim' (k : Station) (p : Option PendingClaim) (d : Chan) :
    (s.setPendingClaim k p).chan d = s.chan d := rfl
@[simp] theorem link_setPendingClaim' (k : Station) (p : Option PendingClaim) (j : Station) :
    (s.setPendingClaim k p).link j = s.link j := rfl
@[simp] theorem setting_setPendingClaim' (k : Station) (p : Option PendingClaim) (j : Station) :
    (s.setPendingClaim k p).setting j = s.setting j := rfl
@[simp] theorem setCoolDown_timeBase (k : Station) (c : Chan) (run : Option Nat) : (s.setCoolDown k c run).timeBase = s.timeBase := rfl
@[simp] theorem setCoolDown_recorders (k : Station) (c : Chan) (run : Option Nat) : (s.setCoolDown k c run).recorders = s.recorders := rfl
@[simp] theorem setCoolDown_unknownAngles (k : Station) (c : Chan) (run : Option Nat) : (s.setCoolDown k c run).unknownAngles = s.unknownAngles := rfl
@[simp] theorem setCoolDown_ingestOut (k : Station) (c : Chan) (run : Option Nat) : (s.setCoolDown k c run).ingestOut = s.ingestOut := rfl
@[simp] theorem setCoolDown_pages (k : Station) (c : Chan) (run : Option Nat) : (s.setCoolDown k c run).pages = s.pages := rfl
@[simp] theorem setCoolDown_clips (k : Station) (c : Chan) (run : Option Nat) : (s.setCoolDown k c run).clips = s.clips := rfl
@[simp] theorem setCoolDown_channels (k : Station) (c : Chan) (run : Option Nat) : (s.setCoolDown k c run).channels = s.channels := rfl
@[simp] theorem setCoolDown_unmatchedPartWide (k : Station) (c : Chan) (run : Option Nat) : (s.setCoolDown k c run).unmatchedPartWide = s.unmatchedPartWide := rfl
@[simp] theorem setCoolDown_fetchOut (k : Station) (c : Chan) (run : Option Nat) : (s.setCoolDown k c run).fetchOut = s.fetchOut := rfl
@[simp] theorem setCoolDown_links (k : Station) (c : Chan) (run : Option Nat) : (s.setCoolDown k c run).links = s.links := rfl
@[simp] theorem setCoolDown_curve (k : Station) (c : Chan) (run : Option Nat) : (s.setCoolDown k c run).curve = s.curve := rfl
@[simp] theorem setCoolDown_settings (k : Station) (c : Chan) (run : Option Nat) : (s.setCoolDown k c run).settings = s.settings := rfl
@[simp] theorem setCoolDown_resetHeld (k : Station) (c : Chan) (run : Option Nat) : (s.setCoolDown k c run).resetHeld = s.resetHeld := rfl
@[simp] theorem setCoolDown_draws (k : Station) (c : Chan) (run : Option Nat) : (s.setCoolDown k c run).draws = s.draws := rfl
@[simp] theorem setCoolDown_pending (k : Station) (c : Chan) (run : Option Nat) : (s.setCoolDown k c run).pending = s.pending := rfl
@[simp] theorem recorder_setCoolDown' (k : Station) (c : Chan) (run : Option Nat) (b : Angle) :
    (s.setCoolDown k c run).recorder b = s.recorder b := rfl
@[simp] theorem pageList_setCoolDown' (k : Station) (c : Chan) (run : Option Nat) (b : Angle) :
    (s.setCoolDown k c run).pageList b = s.pageList b := rfl
@[simp] theorem chan_setCoolDown' (k : Station) (c : Chan) (run : Option Nat) (d : Chan) :
    (s.setCoolDown k c run).chan d = s.chan d := rfl
@[simp] theorem link_setCoolDown' (k : Station) (c : Chan) (run : Option Nat) (j : Station) :
    (s.setCoolDown k c run).link j = s.link j := rfl
@[simp] theorem setting_setCoolDown' (k : Station) (c : Chan) (run : Option Nat) (j : Station) :
    (s.setCoolDown k c run).setting j = s.setting j := rfl
@[simp] theorem modClip_timeBase (id serial : Nat) (f : Clip → Clip) : (s.modClip id serial f).timeBase = s.timeBase := rfl
@[simp] theorem modClip_recorders (id serial : Nat) (f : Clip → Clip) : (s.modClip id serial f).recorders = s.recorders := rfl
@[simp] theorem modClip_unknownAngles (id serial : Nat) (f : Clip → Clip) : (s.modClip id serial f).unknownAngles = s.unknownAngles := rfl
@[simp] theorem modClip_ingestOut (id serial : Nat) (f : Clip → Clip) : (s.modClip id serial f).ingestOut = s.ingestOut := rfl
@[simp] theorem modClip_pages (id serial : Nat) (f : Clip → Clip) : (s.modClip id serial f).pages = s.pages := rfl
@[simp] theorem modClip_channels (id serial : Nat) (f : Clip → Clip) : (s.modClip id serial f).channels = s.channels := rfl
@[simp] theorem modClip_unmatchedPartWide (id serial : Nat) (f : Clip → Clip) : (s.modClip id serial f).unmatchedPartWide = s.unmatchedPartWide := rfl
@[simp] theorem modClip_fetchOut (id serial : Nat) (f : Clip → Clip) : (s.modClip id serial f).fetchOut = s.fetchOut := rfl
@[simp] theorem modClip_arbiter (id serial : Nat) (f : Clip → Clip) : (s.modClip id serial f).arbiter = s.arbiter := rfl
@[simp] theorem modClip_links (id serial : Nat) (f : Clip → Clip) : (s.modClip id serial f).links = s.links := rfl
@[simp] theorem modClip_curve (id serial : Nat) (f : Clip → Clip) : (s.modClip id serial f).curve = s.curve := rfl
@[simp] theorem modClip_settings (id serial : Nat) (f : Clip → Clip) : (s.modClip id serial f).settings = s.settings := rfl
@[simp] theorem modClip_resetHeld (id serial : Nat) (f : Clip → Clip) : (s.modClip id serial f).resetHeld = s.resetHeld := rfl
@[simp] theorem modClip_draws (id serial : Nat) (f : Clip → Clip) : (s.modClip id serial f).draws = s.draws := rfl
@[simp] theorem modClip_pending (id serial : Nat) (f : Clip → Clip) : (s.modClip id serial f).pending = s.pending := rfl
@[simp] theorem recorder_modClip' (id serial : Nat) (f : Clip → Clip) (b : Angle) :
    (s.modClip id serial f).recorder b = s.recorder b := rfl
@[simp] theorem pageList_modClip' (id serial : Nat) (f : Clip → Clip) (b : Angle) :
    (s.modClip id serial f).pageList b = s.pageList b := rfl
@[simp] theorem chan_modClip' (id serial : Nat) (f : Clip → Clip) (d : Chan) :
    (s.modClip id serial f).chan d = s.chan d := rfl
@[simp] theorem link_modClip' (id serial : Nat) (f : Clip → Clip) (j : Station) :
    (s.modClip id serial f).link j = s.link j := rfl
@[simp] theorem holder_modClip' (id serial : Nat) (f : Clip → Clip) (d : Chan) :
    (s.modClip id serial f).holder d = s.holder d := rfl
@[simp] theorem pendingClaim_modClip' (id serial : Nat) (f : Clip → Clip) (j : Station) :
    (s.modClip id serial f).pendingClaim j = s.pendingClaim j := rfl
@[simp] theorem setting_modClip' (id serial : Nat) (f : Clip → Clip) (j : Station) :
    (s.modClip id serial f).setting j = s.setting j := rfl
@[simp] theorem dropClip_timeBase (id serial : Nat) : (s.dropClip id serial).timeBase = s.timeBase := rfl
@[simp] theorem dropClip_recorders (id serial : Nat) : (s.dropClip id serial).recorders = s.recorders := rfl
@[simp] theorem dropClip_unknownAngles (id serial : Nat) : (s.dropClip id serial).unknownAngles = s.unknownAngles := rfl
@[simp] theorem dropClip_ingestOut (id serial : Nat) : (s.dropClip id serial).ingestOut = s.ingestOut := rfl
@[simp] theorem dropClip_pages (id serial : Nat) : (s.dropClip id serial).pages = s.pages := rfl
@[simp] theorem dropClip_channels (id serial : Nat) : (s.dropClip id serial).channels = s.channels := rfl
@[simp] theorem dropClip_unmatchedPartWide (id serial : Nat) : (s.dropClip id serial).unmatchedPartWide = s.unmatchedPartWide := rfl
@[simp] theorem dropClip_fetchOut (id serial : Nat) : (s.dropClip id serial).fetchOut = s.fetchOut := rfl
@[simp] theorem dropClip_arbiter (id serial : Nat) : (s.dropClip id serial).arbiter = s.arbiter := rfl
@[simp] theorem dropClip_links (id serial : Nat) : (s.dropClip id serial).links = s.links := rfl
@[simp] theorem dropClip_curve (id serial : Nat) : (s.dropClip id serial).curve = s.curve := rfl
@[simp] theorem dropClip_settings (id serial : Nat) : (s.dropClip id serial).settings = s.settings := rfl
@[simp] theorem dropClip_resetHeld (id serial : Nat) : (s.dropClip id serial).resetHeld = s.resetHeld := rfl
@[simp] theorem dropClip_draws (id serial : Nat) : (s.dropClip id serial).draws = s.draws := rfl
@[simp] theorem dropClip_pending (id serial : Nat) : (s.dropClip id serial).pending = s.pending := rfl
@[simp] theorem recorder_dropClip' (id serial : Nat) (b : Angle) :
    (s.dropClip id serial).recorder b = s.recorder b := rfl
@[simp] theorem pageList_dropClip' (id serial : Nat) (b : Angle) :
    (s.dropClip id serial).pageList b = s.pageList b := rfl
@[simp] theorem chan_dropClip' (id serial : Nat) (d : Chan) :
    (s.dropClip id serial).chan d = s.chan d := rfl
@[simp] theorem link_dropClip' (id serial : Nat) (j : Station) :
    (s.dropClip id serial).link j = s.link j := rfl
@[simp] theorem holder_dropClip' (id serial : Nat) (d : Chan) :
    (s.dropClip id serial).holder d = s.holder d := rfl
@[simp] theorem pendingClaim_dropClip' (id serial : Nat) (j : Station) :
    (s.dropClip id serial).pendingClaim j = s.pendingClaim j := rfl
@[simp] theorem setting_dropClip' (id serial : Nat) (j : Station) :
    (s.dropClip id serial).setting j = s.setting j := rfl
@[simp] theorem modOpenCounts_timeBase (angles : List Angle) (f : Nat → Nat) : (s.modOpenCounts angles f).timeBase = s.timeBase := rfl
@[simp] theorem modOpenCounts_recorders (angles : List Angle) (f : Nat → Nat) : (s.modOpenCounts angles f).recorders = s.recorders := rfl
@[simp] theorem modOpenCounts_unknownAngles (angles : List Angle) (f : Nat → Nat) : (s.modOpenCounts angles f).unknownAngles = s.unknownAngles := rfl
@[simp] theorem modOpenCounts_ingestOut (angles : List Angle) (f : Nat → Nat) : (s.modOpenCounts angles f).ingestOut = s.ingestOut := rfl
@[simp] theorem modOpenCounts_pages (angles : List Angle) (f : Nat → Nat) : (s.modOpenCounts angles f).pages = s.pages := rfl
@[simp] theorem modOpenCounts_channels (angles : List Angle) (f : Nat → Nat) : (s.modOpenCounts angles f).channels = s.channels := rfl
@[simp] theorem modOpenCounts_unmatchedPartWide (angles : List Angle) (f : Nat → Nat) : (s.modOpenCounts angles f).unmatchedPartWide = s.unmatchedPartWide := rfl
@[simp] theorem modOpenCounts_fetchOut (angles : List Angle) (f : Nat → Nat) : (s.modOpenCounts angles f).fetchOut = s.fetchOut := rfl
@[simp] theorem modOpenCounts_arbiter (angles : List Angle) (f : Nat → Nat) : (s.modOpenCounts angles f).arbiter = s.arbiter := rfl
@[simp] theorem modOpenCounts_links (angles : List Angle) (f : Nat → Nat) : (s.modOpenCounts angles f).links = s.links := rfl
@[simp] theorem modOpenCounts_curve (angles : List Angle) (f : Nat → Nat) : (s.modOpenCounts angles f).curve = s.curve := rfl
@[simp] theorem modOpenCounts_settings (angles : List Angle) (f : Nat → Nat) : (s.modOpenCounts angles f).settings = s.settings := rfl
@[simp] theorem modOpenCounts_resetHeld (angles : List Angle) (f : Nat → Nat) : (s.modOpenCounts angles f).resetHeld = s.resetHeld := rfl
@[simp] theorem modOpenCounts_draws (angles : List Angle) (f : Nat → Nat) : (s.modOpenCounts angles f).draws = s.draws := rfl
@[simp] theorem modOpenCounts_pending (angles : List Angle) (f : Nat → Nat) : (s.modOpenCounts angles f).pending = s.pending := rfl
@[simp] theorem recorder_modOpenCounts' (angles : List Angle) (f : Nat → Nat) (b : Angle) :
    (s.modOpenCounts angles f).recorder b = s.recorder b := rfl
@[simp] theorem pageList_modOpenCounts' (angles : List Angle) (f : Nat → Nat) (b : Angle) :
    (s.modOpenCounts angles f).pageList b = s.pageList b := rfl
@[simp] theorem chan_modOpenCounts' (angles : List Angle) (f : Nat → Nat) (d : Chan) :
    (s.modOpenCounts angles f).chan d = s.chan d := rfl
@[simp] theorem link_modOpenCounts' (angles : List Angle) (f : Nat → Nat) (j : Station) :
    (s.modOpenCounts angles f).link j = s.link j := rfl
@[simp] theorem holder_modOpenCounts' (angles : List Angle) (f : Nat → Nat) (d : Chan) :
    (s.modOpenCounts angles f).holder d = s.holder d := rfl
@[simp] theorem pendingClaim_modOpenCounts' (angles : List Angle) (f : Nat → Nat) (j : Station) :
    (s.modOpenCounts angles f).pendingClaim j = s.pendingClaim j := rfl
@[simp] theorem setting_modOpenCounts' (angles : List Angle) (f : Nat → Nat) (j : Station) :
    (s.modOpenCounts angles f).setting j = s.setting j := rfl
@[simp] theorem nextDraw_timeBase : (s.nextDraw).timeBase = s.timeBase := rfl
@[simp] theorem nextDraw_recorders : (s.nextDraw).recorders = s.recorders := rfl
@[simp] theorem nextDraw_unknownAngles : (s.nextDraw).unknownAngles = s.unknownAngles := rfl
@[simp] theorem nextDraw_ingestOut : (s.nextDraw).ingestOut = s.ingestOut := rfl
@[simp] theorem nextDraw_pages : (s.nextDraw).pages = s.pages := rfl
@[simp] theorem nextDraw_clips : (s.nextDraw).clips = s.clips := rfl
@[simp] theorem nextDraw_channels : (s.nextDraw).channels = s.channels := rfl
@[simp] theorem nextDraw_unmatchedPartWide : (s.nextDraw).unmatchedPartWide = s.unmatchedPartWide := rfl
@[simp] theorem nextDraw_fetchOut : (s.nextDraw).fetchOut = s.fetchOut := rfl
@[simp] theorem nextDraw_arbiter : (s.nextDraw).arbiter = s.arbiter := rfl
@[simp] theorem nextDraw_links : (s.nextDraw).links = s.links := rfl
@[simp] theorem nextDraw_curve : (s.nextDraw).curve = s.curve := rfl
@[simp] theorem nextDraw_settings : (s.nextDraw).settings = s.settings := rfl
@[simp] theorem nextDraw_resetHeld : (s.nextDraw).resetHeld = s.resetHeld := rfl
@[simp] theorem nextDraw_pending : (s.nextDraw).pending = s.pending := rfl
@[simp] theorem recorder_nextDraw'  (b : Angle) :
    (s.nextDraw).recorder b = s.recorder b := rfl
@[simp] theorem pageList_nextDraw'  (b : Angle) :
    (s.nextDraw).pageList b = s.pageList b := rfl
@[simp] theorem chan_nextDraw'  (d : Chan) :
    (s.nextDraw).chan d = s.chan d := rfl
@[simp] theorem link_nextDraw'  (j : Station) :
    (s.nextDraw).link j = s.link j := rfl
@[simp] theorem holder_nextDraw'  (d : Chan) :
    (s.nextDraw).holder d = s.holder d := rfl
@[simp] theorem pendingClaim_nextDraw'  (j : Station) :
    (s.nextDraw).pendingClaim j = s.pendingClaim j := rfl
@[simp] theorem setting_nextDraw'  (j : Station) :
    (s.nextDraw).setting j = s.setting j := rfl
@[simp] theorem modTime_recorders (f : TimeBase → TimeBase) : (s.modTime f).recorders = s.recorders := rfl
@[simp] theorem modTime_unknownAngles (f : TimeBase → TimeBase) : (s.modTime f).unknownAngles = s.unknownAngles := rfl
@[simp] theorem modTime_ingestOut (f : TimeBase → TimeBase) : (s.modTime f).ingestOut = s.ingestOut := rfl
@[simp] theorem modTime_pages (f : TimeBase → TimeBase) : (s.modTime f).pages = s.pages := rfl
@[simp] theorem modTime_clips (f : TimeBase → TimeBase) : (s.modTime f).clips = s.clips := rfl
@[simp] theorem modTime_channels (f : TimeBase → TimeBase) : (s.modTime f).channels = s.channels := rfl
@[simp] theorem modTime_unmatchedPartWide (f : TimeBase → TimeBase) : (s.modTime f).unmatchedPartWide = s.unmatchedPartWide := rfl
@[simp] theorem modTime_fetchOut (f : TimeBase → TimeBase) : (s.modTime f).fetchOut = s.fetchOut := rfl
@[simp] theorem modTime_arbiter (f : TimeBase → TimeBase) : (s.modTime f).arbiter = s.arbiter := rfl
@[simp] theorem modTime_links (f : TimeBase → TimeBase) : (s.modTime f).links = s.links := rfl
@[simp] theorem modTime_curve (f : TimeBase → TimeBase) : (s.modTime f).curve = s.curve := rfl
@[simp] theorem modTime_settings (f : TimeBase → TimeBase) : (s.modTime f).settings = s.settings := rfl
@[simp] theorem modTime_resetHeld (f : TimeBase → TimeBase) : (s.modTime f).resetHeld = s.resetHeld := rfl
@[simp] theorem modTime_draws (f : TimeBase → TimeBase) : (s.modTime f).draws = s.draws := rfl
@[simp] theorem modTime_pending (f : TimeBase → TimeBase) : (s.modTime f).pending = s.pending := rfl
@[simp] theorem recorder_modTime' (f : TimeBase → TimeBase) (b : Angle) :
    (s.modTime f).recorder b = s.recorder b := rfl
@[simp] theorem pageList_modTime' (f : TimeBase → TimeBase) (b : Angle) :
    (s.modTime f).pageList b = s.pageList b := rfl
@[simp] theorem chan_modTime' (f : TimeBase → TimeBase) (d : Chan) :
    (s.modTime f).chan d = s.chan d := rfl
@[simp] theorem link_modTime' (f : TimeBase → TimeBase) (j : Station) :
    (s.modTime f).link j = s.link j := rfl
@[simp] theorem holder_modTime' (f : TimeBase → TimeBase) (d : Chan) :
    (s.modTime f).holder d = s.holder d := rfl
@[simp] theorem pendingClaim_modTime' (f : TimeBase → TimeBase) (j : Station) :
    (s.modTime f).pendingClaim j = s.pendingClaim j := rfl
@[simp] theorem setting_modTime' (f : TimeBase → TimeBase) (j : Station) :
    (s.modTime f).setting j = s.setting j := rfl
@[simp] theorem counted_timeBase (k : Station) : (s.counted k).timeBase = s.timeBase := rfl
@[simp] theorem counted_recorders (k : Station) : (s.counted k).recorders = s.recorders := rfl
@[simp] theorem counted_unknownAngles (k : Station) : (s.counted k).unknownAngles = s.unknownAngles := rfl
@[simp] theorem counted_ingestOut (k : Station) : (s.counted k).ingestOut = s.ingestOut := rfl
@[simp] theorem counted_pages (k : Station) : (s.counted k).pages = s.pages := rfl
@[simp] theorem counted_clips (k : Station) : (s.counted k).clips = s.clips := rfl
@[simp] theorem counted_channels (k : Station) : (s.counted k).channels = s.channels := rfl
@[simp] theorem counted_unmatchedPartWide (k : Station) : (s.counted k).unmatchedPartWide = s.unmatchedPartWide := rfl
@[simp] theorem counted_fetchOut (k : Station) : (s.counted k).fetchOut = s.fetchOut := rfl
@[simp] theorem counted_arbiter (k : Station) : (s.counted k).arbiter = s.arbiter := rfl
@[simp] theorem counted_curve (k : Station) : (s.counted k).curve = s.curve := rfl
@[simp] theorem counted_settings (k : Station) : (s.counted k).settings = s.settings := rfl
@[simp] theorem counted_resetHeld (k : Station) : (s.counted k).resetHeld = s.resetHeld := rfl
@[simp] theorem counted_pending (k : Station) : (s.counted k).pending = s.pending := rfl
@[simp] theorem recorder_counted' (k : Station) (b : Angle) :
    (s.counted k).recorder b = s.recorder b := rfl
@[simp] theorem pageList_counted' (k : Station) (b : Angle) :
    (s.counted k).pageList b = s.pageList b := rfl
@[simp] theorem chan_counted' (k : Station) (d : Chan) :
    (s.counted k).chan d = s.chan d := rfl
@[simp] theorem holder_counted' (k : Station) (d : Chan) :
    (s.counted k).holder d = s.holder d := rfl
@[simp] theorem pendingClaim_counted' (k : Station) (j : Station) :
    (s.counted k).pendingClaim j = s.pendingClaim j := rfl
@[simp] theorem setting_counted' (k : Station) (j : Station) :
    (s.counted k).setting j = s.setting j := rfl

end Sys2Proof.Machine
end

