-- ==== Sys2Proof/Laws/Frames.lean ====
section
/-! SUPPORT. Laws/Frames.lean: for the operations of Machine/Ops.lean, Machine/Flags.lean and Machine/Answers.lean, the parts
of the state each may change. Every lemma goes on from a state `t` that differs from `s` in parts of `m` alone, for any list
`m` of parts that has the parts the operation touches. -/

namespace Sys2Proof.Machine

variable {m : List Part} {s t u : State}

/-! ### The relation -/

theorem State.agree_refl (s : State) (p : Part) : s.agree s p := by cases p <;> simp [State.agree]

theorem State.agree_trans {p : Part} (h : s.agree t p) (k : t.agree u p) : s.agree u p := by
  cases p <;> simp_all [State.agree]

theorem Frame.refl (m : List Part) (s : State) : Frame m s s := fun p _ => s.agree_refl p

theorem Frame.trans (h : Frame m s t) (k : Frame m t u) : Frame m s u :=
  fun p hp => State.agree_trans (h p hp) (k p hp)

theorem Frame.mono {m' : List Part} (h : Frame m s t) (hm : ∀ p ∈ m, p ∈ m') : Frame m' s t :=
  fun p hp => h p fun hp' => hp (hm p hp')

theorem Frame.foldl {α : Type} (l : List α) (f : State → α → State) (hf : ∀ u a, Frame m s u → Frame m s (f u a))
    (k : Frame m s t) : Frame m s (l.foldl f t) := by
  induction l generalizing t with
  | nil => exact k
  | cons a l ih => exact ih (hf t a k)

theorem Frame.ite {c : Prop} [Decidable c] (ht : Frame m s t) (hu : Frame m s u) :
    Frame m s (if c then t else u) := by split <;> assumption

/-! ### Updates of a part -/

theorem frame_modRecorder (h0 : Part.recorders ∈ m) (a : Angle) (f : RecContext → RecContext) (k : Frame m s t) :
    Frame m s (t.modRecorder a f) := by
  refine k.trans fun p hp => ?_
  cases p <;> first | exact absurd h0 hp | exact rfl | exact fun _ => rfl | exact fun _ => ⟨rfl, rfl⟩ | exact ⟨rfl, rfl⟩ |
    exact ⟨rfl, fun _ => rfl⟩ | exact ⟨rfl, rfl, rfl⟩ | exact ⟨rfl, rfl, rfl, rfl, rfl⟩

theorem frame_modRecCounts (h : Part.recorders ∈ m) (a : Angle) (f : RecCounts → RecCounts) (k : Frame m s t) :
    Frame m s (t.modRecCounts a f) := frame_modRecorder h _ _ k

theorem frame_modPageList (h : Part.pages ∈ m) (a : Angle) (f : List Page → List Page)
    (hf : ∀ l, (f l).map (·.number) = l.map (·.number)) (k : Frame m s t) : Frame m s (t.modPageList a f) := by
  refine k.trans fun p hp => ?_
  cases p
  case pages => exact absurd h hp
  case pageNumbers =>
    refine ⟨rfl, fun b => ?_⟩
    rw [pageList_modPageList]
    split
    · exact hf _
    · rfl
  all_goals first | exact rfl | exact fun _ => rfl | exact fun _ => ⟨rfl, rfl⟩ | exact ⟨rfl, rfl⟩ |
    exact ⟨rfl, fun _ => rfl⟩ | exact ⟨rfl, rfl, rfl⟩ | exact ⟨rfl, rfl, rfl, rfl, rfl⟩

theorem frame_modPageList_any (h0 : Part.pages ∈ m) (h1 : Part.pageNumbers ∈ m) (a : Angle) (f : List Page → List Page) (k : Frame m s t) :
    Frame m s (t.modPageList a f) := by
  refine k.trans fun p hp => ?_
  cases p <;> first | exact absurd h0 hp | exact absurd h1 hp | exact rfl | exact fun _ => rfl | exact fun _ => ⟨rfl, rfl⟩ | exact ⟨rfl, rfl⟩ |
    exact ⟨rfl, fun _ => rfl⟩ | exact ⟨rfl, rfl, rfl⟩ | exact ⟨rfl, rfl, rfl, rfl, rfl⟩

theorem frame_modPage (h : Part.pages ∈ m) (n : Nat) (f : Page → Page) (hf : ∀ p, (f p).number = p.number)
    (k : Frame m s t) : Frame m s (t.modPage n f) := by
  refine k.trans fun p hp => ?_
  cases p
  case pages => exact absurd h hp
  case pageNumbers =>
    refine ⟨rfl, fun b => ?_⟩
    simp only [pageList_modPage, List.map_map]
    apply List.map_congr_left
    intro q _
    simp only [Function.comp]
    split
    · exact hf q
    · rfl
  all_goals first | exact rfl | exact fun _ => rfl | exact fun _ => ⟨rfl, rfl⟩ | exact ⟨rfl, rfl⟩ |
    exact ⟨rfl, fun _ => rfl⟩ | exact ⟨rfl, rfl, rfl⟩ | exact ⟨rfl, rfl, rfl, rfl, rfl⟩

theorem frame_modPage? (h : Part.pages ∈ m) (n : Option Nat) (f : Page → Page) (hf : ∀ p, (f p).number = p.number)
    (k : Frame m s t) : Frame m s (t.modPage? n f) := by
  cases n with
  | none => exact k
  | some n => exact frame_modPage h n f hf k

theorem frame_movePin (h : Part.pages ∈ m) (old new : Option Nat) (k : Frame m s t) : Frame m s (t.movePin old new) := by
  unfold State.movePin
  split
  · exact k
  · exact frame_modPage? h _ _ (fun _ => by rfl) (frame_modPage? h _ _ (fun _ => by rfl) k)

theorem frame_releaseFetch (h : Part.pages ∈ m) (e : FetchEntry) (k : Frame m s t) : Frame m s (t.releaseFetch e) :=
  frame_modPage? h _ _ (fun _ => by rfl) (frame_modPage? h _ _ (fun _ => by rfl) k)

/-- A change of one channel changes the cue queues, the fetches or the rest of the channels, as far as the change of the
channel does. -/
theorem frame_modChan_any (c : Chan) (f : Channel → Channel)
    (hr : Part.channels ∈ m ∨ ∀ ch, (f ch).rest = ch.rest) (hc : Part.cues ∈ m ∨ ∀ ch, (f ch).cues = ch.cues)
    (hf : Part.fetches ∈ m ∨ ∀ ch, (f ch).inFlight = ch.inFlight ∧ (f ch).nextTag = ch.nextTag) (k : Frame m s t) :
    Frame m s (t.modChan c f) := by
  refine k.trans fun p hp => ?_
  cases p
  case channels =>
    intro d
    rw [chan_modChan]
    split
    · exact hr.resolve_left hp _
    · rfl
  case cues =>
    intro d
    rw [chan_modChan]
    split
    · exact hc.resolve_left hp _
    · rfl
  case fetches =>
    intro d
    rw [chan_modChan]
    split
    · exact hf.resolve_left hp _
    · exact ⟨rfl, rfl⟩
  all_goals first | exact rfl | exact fun _ => rfl | exact fun _ => ⟨rfl, rfl⟩ | exact ⟨rfl, rfl⟩ |
    exact ⟨rfl, fun _ => rfl⟩ | exact ⟨rfl, rfl, rfl⟩ | exact ⟨rfl, rfl, rfl, rfl, rfl⟩

theorem frame_modChan (h : Part.channels ∈ m) (c : Chan) (f : Channel → Channel) (hc : ∀ ch, (f ch).cues = ch.cues)
    (hf : ∀ ch, (f ch).inFlight = ch.inFlight ∧ (f ch).nextTag = ch.nextTag) (k : Frame m s t) :
    Frame m s (t.modChan c f) := frame_modChan_any c f (.inl h) (.inr hc) (.inr hf) k

theorem frame_modHead (h : Part.channels ∈ m) (c : Chan) (f : Playhead → Playhead) (k : Frame m s t) :
    Frame m s (t.modHead c f) := frame_modChan h c _ (fun _ => by rfl) (fun _ => ⟨by rfl, by rfl⟩) k

theorem frame_modChanCounts (h : Part.channels ∈ m) (c : Chan) (f : ChanCounts → ChanCounts) (k : Frame m s t) :
    Frame m s (t.modChanCounts c f) := frame_modChan h c _ (fun _ => by rfl) (fun _ => ⟨by rfl, by rfl⟩) k

theorem frame_modLink_any (j : Station) (f : Link → Link) (hr : Part.links ∈ m ∨ ∀ l, (f l).rest = l.rest)
    (hs : Part.linkStates ∈ m ∨ ∀ l, (f l).state = l.state ∧ (f l).enabled = l.enabled) (k : Frame m s t) :
    Frame m s (t.modLink j f) := by
  refine k.trans fun p hp => ?_
  cases p
  case links =>
    intro i
    rw [link_modLink]
    split
    · exact hr.resolve_left hp _
    · rfl
  case linkStates =>
    intro i
    rw [link_modLink]
    split
    · exact hs.resolve_left hp _
    · exact ⟨rfl, rfl⟩
  all_goals first | exact rfl | exact fun _ => rfl | exact fun _ => ⟨rfl, rfl⟩ | exact ⟨rfl, rfl⟩ |
    exact ⟨rfl, fun _ => rfl⟩ | exact ⟨rfl, rfl, rfl⟩ | exact ⟨rfl, rfl, rfl, rfl, rfl⟩

theorem frame_modLink (h : Part.links ∈ m) (j : Station) (f : Link → Link)
    (hs : ∀ l, (f l).state = l.state ∧ (f l).enabled = l.enabled) (k : Frame m s t) : Frame m s (t.modLink j f) :=
  frame_modLink_any j f (.inl h) (.inr hs) k

theorem frame_modLinkCounts (h : Part.links ∈ m) (j : Station) (f : LinkCounts → LinkCounts) (k : Frame m s t) :
    Frame m s (t.modLinkCounts j f) := frame_modLink h j _ (fun _ => ⟨by rfl, by rfl⟩) k

theorem frame_writeAck (h : Part.links ∈ m) (j : Station) (ack : AckArea) (k : Frame m s t) :
    Frame m s (t.writeAck j ack) := frame_modLink h j _ (fun _ => ⟨by rfl, by rfl⟩) k

theorem frame_setHolder (h0 : Part.claims ∈ m) (c : Chan) (x : Option Station) (k : Frame m s t) :
    Frame m s (t.setHolder c x) := by
  refine k.trans fun p hp => ?_
  cases p <;> first | exact absurd h0 hp | exact rfl | exact fun _ => rfl | exact fun _ => ⟨rfl, rfl⟩ | exact ⟨rfl, rfl⟩ |
    exact ⟨rfl, fun _ => rfl⟩ | exact ⟨rfl, rfl, rfl⟩ | exact ⟨rfl, rfl, rfl, rfl, rfl⟩

theorem frame_setPendingClaim (h0 : Part.claims ∈ m) (j : Station) (x : Option PendingClaim) (k : Frame m s t) :
    Frame m s (t.setPendingClaim j x) := by
  refine k.trans fun p hp => ?_
  cases p <;> first | exact absurd h0 hp | exact rfl | exact fun _ => rfl | exact fun _ => ⟨rfl, rfl⟩ | exact ⟨rfl, rfl⟩ |
    exact ⟨rfl, fun _ => rfl⟩ | exact ⟨rfl, rfl, rfl⟩ | exact ⟨rfl, rfl, rfl, rfl, rfl⟩

theorem frame_setCoolDown (h0 : Part.claims ∈ m) (j : Station) (c : Chan) (x : Option Nat) (k : Frame m s t) :
    Frame m s (t.setCoolDown j c x) := by
  refine k.trans fun p hp => ?_
  cases p <;> first | exact absurd h0 hp | exact rfl | exact fun _ => rfl | exact fun _ => ⟨rfl, rfl⟩ | exact ⟨rfl, rfl⟩ |
    exact ⟨rfl, fun _ => rfl⟩ | exact ⟨rfl, rfl, rfl⟩ | exact ⟨rfl, rfl, rfl, rfl, rfl⟩

/-! ### Updates of whole fields -/

theorem frame_clips (h0 : Part.clips ∈ m) (x : ClipTable) (k : Frame m s t) :
    Frame m s { t with clips := x } := by
  refine k.trans fun p hp => ?_
  cases p <;> first | exact absurd h0 hp | exact rfl | exact fun _ => rfl | exact fun _ => ⟨rfl, rfl⟩ | exact ⟨rfl, rfl⟩ |
    exact ⟨rfl, fun _ => rfl⟩ | exact ⟨rfl, rfl, rfl⟩ | exact ⟨rfl, rfl, rfl, rfl, rfl⟩

theorem frame_timeBase (h0 : Part.timeBase ∈ m) (x : TimeBase) (k : Frame m s t) :
    Frame m s { t with timeBase := x } := by
  refine k.trans fun p hp => ?_
  cases p <;> first | exact absurd h0 hp | exact rfl | exact fun _ => rfl | exact fun _ => ⟨rfl, rfl⟩ | exact ⟨rfl, rfl⟩ |
    exact ⟨rfl, fun _ => rfl⟩ | exact ⟨rfl, rfl, rfl⟩ | exact ⟨rfl, rfl, rfl, rfl, rfl⟩

theorem frame_unknownAngles (h0 : Part.unknownAngles ∈ m) (x : Nat) (k : Frame m s t) :
    Frame m s { t with unknownAngles := x } := by
  refine k.trans fun p hp => ?_
  cases p <;> first | exact absurd h0 hp | exact rfl | exact fun _ => rfl | exact fun _ => ⟨rfl, rfl⟩ | exact ⟨rfl, rfl⟩ |
    exact ⟨rfl, fun _ => rfl⟩ | exact ⟨rfl, rfl, rfl⟩ | exact ⟨rfl, rfl, rfl, rfl, rfl⟩

theorem frame_ingestOut (h0 : Part.ingestOut ∈ m) (x : List IngestAnswer) (k : Frame m s t) :
    Frame m s { t with ingestOut := x } := by
  refine k.trans fun p hp => ?_
  cases p <;> first | exact absurd h0 hp | exact rfl | exact fun _ => rfl | exact fun _ => ⟨rfl, rfl⟩ | exact ⟨rfl, rfl⟩ |
    exact ⟨rfl, fun _ => rfl⟩ | exact ⟨rfl, rfl, rfl⟩ | exact ⟨rfl, rfl, rfl, rfl, rfl⟩

theorem frame_unmatched (h0 : Part.unmatchedPartWide ∈ m) (x : Nat) (k : Frame m s t) :
    Frame m s { t with unmatchedPartWide := x } := by
  refine k.trans fun p hp => ?_
  cases p <;> first | exact absurd h0 hp | exact rfl | exact fun _ => rfl | exact fun _ => ⟨rfl, rfl⟩ | exact ⟨rfl, rfl⟩ |
    exact ⟨rfl, fun _ => rfl⟩ | exact ⟨rfl, rfl, rfl⟩ | exact ⟨rfl, rfl, rfl, rfl, rfl⟩

theorem frame_fetchOut (h0 : Part.fetchOut ∈ m) (x : List FetchRequest) (k : Frame m s t) :
    Frame m s { t with fetchOut := x } := by
  refine k.trans fun p hp => ?_
  cases p <;> first | exact absurd h0 hp | exact rfl | exact fun _ => rfl | exact fun _ => ⟨rfl, rfl⟩ | exact ⟨rfl, rfl⟩ |
    exact ⟨rfl, fun _ => rfl⟩ | exact ⟨rfl, rfl, rfl⟩ | exact ⟨rfl, rfl, rfl, rfl, rfl⟩

theorem frame_curve (h0 : Part.curve ∈ m) (x : Vector Nat 11) (k : Frame m s t) :
    Frame m s { t with curve := x } := by
  refine k.trans fun p hp => ?_
  cases p <;> first | exact absurd h0 hp | exact rfl | exact fun _ => rfl | exact fun _ => ⟨rfl, rfl⟩ | exact ⟨rfl, rfl⟩ |
    exact ⟨rfl, fun _ => rfl⟩ | exact ⟨rfl, rfl, rfl⟩ | exact ⟨rfl, rfl, rfl, rfl, rfl⟩

theorem frame_settings (h0 : Part.settings ∈ m) (x : Vector Settings 5) (k : Frame m s t) :
    Frame m s { t with settings := x } := by
  refine k.trans fun p hp => ?_
  cases p <;> first | exact absurd h0 hp | exact rfl | exact fun _ => rfl | exact fun _ => ⟨rfl, rfl⟩ | exact ⟨rfl, rfl⟩ |
    exact ⟨rfl, fun _ => rfl⟩ | exact ⟨rfl, rfl, rfl⟩ | exact ⟨rfl, rfl, rfl, rfl, rfl⟩

theorem frame_routes (h0 : Part.routes ∈ m) (a b : Chan) (k : Frame m s t) :
    Frame m s { t with arbiter := { t.arbiter with pgm := a, pvw := b } } := by
  refine k.trans fun p hp => ?_
  cases p <;> first | exact absurd h0 hp | exact rfl | exact fun _ => rfl | exact fun _ => ⟨rfl, rfl⟩ | exact ⟨rfl, rfl⟩ |
    exact ⟨rfl, fun _ => rfl⟩ | exact ⟨rfl, rfl, rfl⟩ | exact ⟨rfl, rfl, rfl, rfl, rfl⟩

theorem frame_arbiter (h0 : Part.routes ∈ m) (h1 : Part.claims ∈ m) (x : Arbiter) (k : Frame m s t) :
    Frame m s { t with arbiter := x } := by
  refine k.trans fun p hp => ?_
  cases p <;> first | exact absurd h0 hp | exact absurd h1 hp | exact rfl | exact fun _ => rfl | exact fun _ => ⟨rfl, rfl⟩ | exact ⟨rfl, rfl⟩ |
    exact ⟨rfl, fun _ => rfl⟩ | exact ⟨rfl, rfl, rfl⟩ | exact ⟨rfl, rfl, rfl, rfl, rfl⟩

theorem frame_nextDraw (h0 : Part.draws ∈ m)  (k : Frame m s t) :
    Frame m s t.nextDraw := by
  refine k.trans fun p hp => ?_
  cases p <;> first | exact absurd h0 hp | exact rfl | exact fun _ => rfl | exact fun _ => ⟨rfl, rfl⟩ | exact ⟨rfl, rfl⟩ |
    exact ⟨rfl, fun _ => rfl⟩ | exact ⟨rfl, rfl, rfl⟩ | exact ⟨rfl, rfl, rfl, rfl, rfl⟩

theorem frame_modTime (h0 : Part.timeBase ∈ m) (f : TimeBase → TimeBase) (k : Frame m s t) :
    Frame m s (t.modTime f) := by
  refine k.trans fun p hp => ?_
  cases p <;> first | exact absurd h0 hp | exact rfl | exact fun _ => rfl | exact fun _ => ⟨rfl, rfl⟩ | exact ⟨rfl, rfl⟩ |
    exact ⟨rfl, fun _ => rfl⟩ | exact ⟨rfl, rfl, rfl⟩ | exact ⟨rfl, rfl, rfl, rfl, rfl⟩

/-- A change of the page store that keeps the pool and the page numbers of every list. -/
theorem frame_pages (h : Part.pages ∈ m) (x : PageStore) (hp : x.pool = t.pages.pool)
    (hl : ∀ a, (x.lists.get a).map (·.number) = (t.pageList a).map (·.number)) (k : Frame m s t) :
    Frame m s { t with pages := x } := by
  refine k.trans fun p hm => ?_
  cases p
  case pages => exact absurd h hm
  case pageNumbers => exact ⟨hp, hl⟩
  all_goals first | exact rfl | exact fun _ => rfl | exact fun _ => ⟨rfl, rfl⟩ | exact ⟨rfl, rfl⟩ |
    exact ⟨rfl, fun _ => rfl⟩ | exact ⟨rfl, rfl, rfl⟩ | exact ⟨rfl, rfl, rfl, rfl, rfl⟩

/-- Any change of the page store. -/
theorem frame_pages_any (h0 : Part.pages ∈ m) (h1 : Part.pageNumbers ∈ m) (x : PageStore) (k : Frame m s t) :
    Frame m s { t with pages := x } := by
  refine k.trans fun p hp => ?_
  cases p <;> first | exact absurd h0 hp | exact absurd h1 hp | exact rfl | exact fun _ => rfl | exact fun _ => ⟨rfl, rfl⟩ | exact ⟨rfl, rfl⟩ |
    exact ⟨rfl, fun _ => rfl⟩ | exact ⟨rfl, rfl, rfl⟩ | exact ⟨rfl, rfl, rfl, rfl, rfl⟩

/-! ### Clip records -/

theorem frame_modClip (h : Part.clips ∈ m) (id serial : Nat) (f : Clip → Clip) (k : Frame m s t) :
    Frame m s (t.modClip id serial f) := frame_clips h _ k

theorem frame_dropClip (h : Part.clips ∈ m) (id serial : Nat) (k : Frame m s t) : Frame m s (t.dropClip id serial) :=
  frame_clips h _ k

theorem frame_raiseGeneration (h : Part.clips ∈ m) (k : Frame m s t) : Frame m s t.raiseGeneration := by
  unfold State.raiseGeneration
  split
  · exact k
  · exact frame_clips h _ k

theorem frame_modOpenCounts (h : Part.clips ∈ m) (angles : List Angle) (f : Nat → Nat) (k : Frame m s t) :
    Frame m s (t.modOpenCounts angles f) := frame_clips h _ k

theorem frame_inEvent (h : Part.clips ∈ m) (f : State → State) (hf : ∀ u, Frame m s u → Frame m s (f u))
    (k : Frame m s t) : Frame m s (t.inEvent f) := frame_clips h _ (hf _ (frame_clips h _ k))

/-! ### Alerts -/

theorem frame_raiseAlert (h : Part.links ∈ m) (j : Station) (x : Alert) (k : Frame m s t) :
    Frame m s (t.raiseAlert j x) := frame_modLink h j _ (fun _ => ⟨by rfl, by rfl⟩) k

theorem frame_raiseAngleAlert (h : Part.links ∈ m) (x : Alert) (k : Frame m s t) : Frame m s (t.raiseAngleAlert x) :=
  Frame.foldl _ _ (fun _ _ hu => frame_raiseAlert h _ _ hu) k

theorem frame_raiseChanAlert (h : Part.links ∈ m) (c : Chan) (x : Alert) (k : Frame m s t) :
    Frame m s (t.raiseChanAlert c x) := frame_raiseAlert h _ _ k

theorem frame_keyIgnored (h : Part.links ∈ m) (j : Station) (k : Frame m s t) : Frame m s (t.keyIgnored j) :=
  frame_raiseAlert h _ _ k

/-! ### The start of a command -/

theorem frame_answerBusy (h : Part.links ∈ m) (j : Station) (kind : Nat) (k : Frame m s t) :
    Frame m s (t.answerBusy j kind) := frame_writeAck h _ _ (frame_modLinkCounts h _ _ k)

/-- What the start of a command may change: what its owning block's rule may, the link's counts and its ack area. -/
theorem frame_startCommand (hl : Part.links ∈ m) (hd : Part.draws ∈ m) (stn : Station) (kind : CommandKind) (fits : Bool)
    (body : State → State × Reply) (hb : ∀ u, Frame m s u → Frame m s (body u).1) (k : Frame m s t) :
    Frame m s (startCommand stn kind fits body t) := by
  unfold startCommand
  split
  · exact k
  split
  · exact frame_answerBusy hl _ _ k
  split
  · exact frame_writeAck hl _ _ k
  split
  · exact frame_writeAck hl _ _ k
  · exact frame_writeAck hl _ _ (hb _ (frame_nextDraw hd (frame_modLinkCounts hl _ _ k)))

theorem frame_startUnknown (hl : Part.links ∈ m) (stn : Station) (code : Nat) (k : Frame m s t) :
    Frame m s (startUnknown stn code t) := Frame.ite (frame_answerBusy hl _ _ k) (frame_writeAck hl _ _ k)

theorem frame_onChannel (stn : Station) (channel : Byte) (rule : Chan → State → State × Reply)
    (hr : ∀ c u, Frame m s u → Frame m s (rule c u).1) (k : Frame m s t) :
    Frame m s (onChannel stn channel rule t).1 := by
  unfold onChannel
  split
  · exact k
  · split
    · exact k
    · exact hr _ _ k

theorem frame_answerClaim (h : Part.links ∈ m) (j : Station) (c : Chan) (r : Result) (k : Frame m s t) :
    Frame m s (t.answerClaim j c r) := frame_writeAck h _ _ k

/-- A command of the part acts, or is not taken while RESET is held. -/
theorem frame_act (f : State → State) (hf : ∀ u, Frame m s u → Frame m s (f u)) (h : act f s = .next t) :
    Frame m s t := by
  unfold act at h
  cases h
  split
  · exact Frame.refl m s
  · exact hf s (Frame.refl m s)

end Sys2Proof.Machine
end

