-- ==== Sys2Proof/Laws/StoreFrames.lean ====
section
/-! SUPPORT. Laws/StoreFrames.lean: the parts of the state that the operations of the page store, the clip table and the
recorder may change. -/

namespace Sys2Proof.Machine

variable {m : List Part} {s t : State}

/-! ### The page store -/

theorem sealFilling_numbers (l : List Page) : (sealFilling l).map (·.number) = l.map (·.number) := by
  simp only [sealFilling, List.map_map]
  apply List.map_congr_left
  intro p _
  simp only [Function.comp]
  split <;> rfl

theorem frame_sealAngle (h : Part.pages ∈ m) (a : Angle) (k : Frame m s t) : Frame m s (t.sealAngle a) :=
  frame_modPageList h a _ sealFilling_numbers k

theorem frame_supplyPage (h : Part.pages ∈ m) (hn : Part.pageNumbers ∈ m) (a : Angle) (frame : Nat) (k : Frame m s t) :
    Frame m s (t.supplyPage a frame).1 := by
  unfold State.supplyPage
  dsimp only
  split
  · exact frame_modPageList_any h hn _ _ (frame_pages_any h hn _ k)
  · split
    · exact frame_modPageList_any h hn _ _ (frame_pages_any h hn _ k)
    · exact frame_modPageList_any h hn _ _ (frame_pages_any h hn _ k)

theorem frame_emptyAngle (h : Part.pages ∈ m) (hn : Part.pageNumbers ∈ m) (a : Angle) (k : Frame m s t) :
    Frame m s (t.emptyAngle a) := frame_modPageList_any h hn _ _ (frame_pages_any h hn _ k)

theorem frame_scanCompleted (h : Part.clips ∈ m) (id serial : Nat) (k : Frame m s t) :
    Frame m s (t.scanCompleted id serial) := by
  unfold State.scanCompleted
  split
  · exact k
  · split
    · split
      · exact frame_raiseGeneration h (frame_modClip h _ _ _ k)
      · exact frame_raiseGeneration h (frame_dropClip h _ _ k)
      · exact frame_modClip h _ _ _ k
    · exact frame_modClip h _ _ _ k

theorem frame_settleFrom (hp : Part.pages ∈ m) (hc : Part.clips ∈ m) (l : List Scan) (k : Frame m s t) :
    Frame m s (t.settleFrom l) := by
  induction l generalizing t with
  | nil => exact frame_pages hp _ rfl (fun _ => rfl) k
  | cons sc rest ih =>
    unfold State.settleFrom
    split
    · exact ih (frame_scanCompleted hc _ _ (frame_pages hp _ rfl (fun _ => rfl) k))
    · exact frame_pages hp _ rfl (fun _ => rfl) k

theorem frame_settleScans (hp : Part.pages ∈ m) (hc : Part.clips ∈ m) (k : Frame m s t) : Frame m s t.settleScans :=
  frame_settleFrom hp hc _ k

theorem frame_visitPage (hp : Part.pages ∈ m) (kind : ScanKind) (p : Page) (k : Frame m s t) :
    Frame m s (t.visitPage kind p) := by
  unfold State.visitPage
  split
  · exact frame_modPage hp _ _ (fun _ => by rfl) k
  · split
    · exact frame_pages hp _ rfl (fun _ => rfl) k
    · exact frame_modPage hp _ _ (fun _ => by rfl) k

theorem frame_scanVisit (hp : Part.pages ∈ m) (hc : Part.clips ∈ m) (k : Frame m s t) : Frame m s t.scanVisit := by
  have k' := frame_settleScans hp hc k
  unfold State.scanVisit
  dsimp only
  split
  · exact k'
  · split
    · exact k'
    · split
      · exact k'
      · exact frame_settleScans hp hc (frame_visitPage hp _ _ (frame_pages hp _ rfl (fun _ => rfl) k'))

theorem frame_headHold (hp : Part.pages ∈ m) (start : Nat) (a : Angle) (k : Frame m s t) :
    Frame m s (t.headHold start a) := frame_modPage? hp _ _ (fun _ => by rfl) k

theorem frame_queueScan (hp : Part.pages ∈ m) (hc : Part.clips ∈ m) (c : Clip) (kind : ScanKind) (rule : VisitRule)
    (start : Nat) (stop : Option Nat) (head : Bool) (k : Frame m s t) :
    Frame m s (t.queueScan c kind rule start stop head) := by
  unfold State.queueScan
  refine frame_modClip hc _ _ _ (frame_pages hp _ rfl (fun _ => rfl) ?_)
  split
  · exact Frame.foldl _ _ (fun _ _ hu => frame_headHold hp _ _ hu) k
  · exact k

/-! ### The clip table -/

theorem frame_startDeletion (hp : Part.pages ∈ m) (hc : Part.clips ∈ m) (c : Clip) (k : Frame m s t) :
    Frame m s (t.startDeletion c) :=
  frame_settleScans hp hc (frame_queueScan hp hc _ _ _ _ _ _ (frame_raiseGeneration hc (frame_modClip hc _ _ _ k)))

theorem frame_removeClip (hc : Part.clips ∈ m) (c : Clip) (k : Frame m s t) : Frame m s (t.removeClip c) :=
  frame_raiseGeneration hc (frame_dropClip hc _ _ k)

theorem frame_dropUse (hp : Part.pages ∈ m) (hc : Part.clips ∈ m) (id serial : Nat) (k : Frame m s t) :
    Frame m s (t.dropUse id serial) := by
  unfold State.dropUse
  split
  · exact k
  · dsimp only
    split
    · split
      · exact frame_startDeletion hp hc _ (frame_modClip hc _ _ _ k)
      · exact frame_removeClip hc _ (frame_modClip hc _ _ _ k)
    · exact frame_modClip hc _ _ _ k

theorem frame_addUse (hc : Part.clips ∈ m) (id serial : Nat) (k : Frame m s t) : Frame m s (t.addUse id serial) :=
  frame_modClip hc _ _ _ k

theorem frame_addClip (hc : Part.clips ∈ m) (c : Clip) (k : Frame m s t) : Frame m s (t.addClip c) :=
  frame_raiseGeneration hc (frame_clips hc _ k)

theorem frame_takeMarkIn (hp : Part.pages ∈ m) (hc : Part.clips ∈ m) (stn : Station) (k : Frame m s t) :
    Frame m s (t.takeMarkIn stn).1 := by
  unfold State.takeMarkIn
  split
  · unfold State.createOpen
    split
    · exact k
    · exact frame_settleScans hp hc (frame_queueScan hp hc _ _ _ _ _ _ (frame_modOpenCounts hc _ _ (frame_addClip hc _ k)))
  · unfold State.reMark
    split
    · exact k
    · dsimp only
      split
      · exact k
      · split
        · exact frame_settleScans hp hc (frame_queueScan hp hc _ _ _ _ _ _ (frame_raiseGeneration hc (frame_modClip hc _ _ _ k)))
        · exact frame_settleScans hp hc (frame_queueScan hp hc _ _ _ _ _ _ (frame_raiseGeneration hc (frame_modClip hc _ _ _ k)))

theorem frame_closeClip (hp : Part.pages ∈ m) (hc : Part.clips ∈ m) (c : Clip) (mark : Nat) (k : Frame m s t) :
    Frame m s (t.closeClip c mark).1 := by
  unfold State.closeClip
  refine frame_settleScans hp hc (frame_queueScan hp hc _ _ _ _ _ _ ?_)
  have k' := fun f g => frame_modOpenCounts hc c.angles g (frame_raiseGeneration hc (frame_modClip hc c.id c.serial f k))
  split
  · exact frame_queueScan hp hc _ _ _ _ _ _ (k' _ _)
  · exact k' _ _

theorem frame_takeMarkOut (hp : Part.pages ∈ m) (hc : Part.clips ∈ m) (stn : Station) (k : Frame m s t) :
    Frame m s (t.takeMarkOut stn).1 := by
  unfold State.takeMarkOut
  split
  · exact frame_closeClip hp hc _ _ k
  · unfold State.createClosing
    split
    · exact k
    · exact frame_settleScans hp hc (frame_queueScan hp hc _ _ _ _ _ _ (frame_addClip hc _ k))

theorem frame_graceMarkOut (hp : Part.pages ∈ m) (hc : Part.clips ∈ m) (stn : Station) (k : Frame m s t) :
    Frame m s (t.graceMarkOut stn) := by
  unfold State.graceMarkOut
  split
  · exact frame_closeClip hp hc _ _ k
  · exact k

theorem frame_onClip (stn : Station) (id serial : BitVec 16) (rule : Clip → State → State × Reply)
    (hr : ∀ c u, Frame m s u → Frame m s (rule c u).1) (k : Frame m s t) : Frame m s (onClip stn id serial rule t).1 := by
  unfold onClip
  split
  · exact k
  · split
    · exact hr _ _ k
    · exact k

theorem frame_protectRule (hp : Part.pages ∈ m) (hc : Part.clips ∈ m) (wanted : Bool) (c : Clip) (k : Frame m s t) :
    Frame m s (protectRule wanted c t).1 := by
  unfold protectRule
  repeat' split
  all_goals first
    | exact k
    | exact frame_settleScans hp hc (frame_queueScan hp hc _ _ _ _ _ _ (frame_raiseGeneration hc (frame_modClip hc _ _ _ k)))

theorem frame_deleteRule (hp : Part.pages ∈ m) (hc : Part.clips ∈ m) (c : Clip) (k : Frame m s t) :
    Frame m s (deleteRule c t).1 := by
  unfold deleteRule
  repeat' split
  all_goals first
    | exact k
    | exact frame_startDeletion hp hc _ (frame_modOpenCounts hc _ _ k)
    | exact frame_raiseGeneration hc (frame_modClip hc _ _ _ k)
    | exact frame_startDeletion hp hc _ k
    | exact frame_removeClip hc _ k

theorem frame_editClip (hc : Part.clips ∈ m) (c d : Clip) (k : Frame m s t) : Frame m s (t.editClip c d) := by
  unfold State.editClip
  split
  · exact k
  · exact frame_raiseGeneration hc (frame_modClip hc _ _ _ k)

theorem frame_labelRule (hc : Part.clips ∈ m) (text : List (BitVec 7)) (c : Clip) (k : Frame m s t) :
    Frame m s (labelRule text c t).1 := by
  unfold labelRule
  repeat' split
  all_goals first | exact k | exact frame_editClip hc _ _ k

theorem frame_tagAddRule (hc : Part.clips ∈ m) (tag : Byte) (c : Clip) (k : Frame m s t) :
    Frame m s (tagAddRule tag c t).1 := by
  unfold tagAddRule
  repeat' split
  all_goals first | exact k | exact frame_editClip hc _ _ k

theorem frame_tagRemoveRule (hc : Part.clips ∈ m) (tag : Byte) (c : Clip) (k : Frame m s t) :
    Frame m s (tagRemoveRule tag c t).1 := by
  unfold tagRemoveRule
  repeat' split
  all_goals first | exact k | exact frame_editClip hc _ _ k

theorem frame_heroRule (hc : Part.clips ∈ m) (angle : Byte) (c : Clip) (k : Frame m s t) :
    Frame m s (heroRule angle c t).1 := by
  unfold heroRule
  repeat' split
  all_goals first | exact k | exact frame_editClip hc _ _ k

/-! ### The recorder -/

theorem frame_findPage (h : Part.pages ∈ m) (hn : Part.pageNumbers ∈ m) (a : Angle) (n : Nat) (k : Frame m s t) :
    Frame m s (t.findPage a n).1 := by
  unfold State.findPage
  repeat' split
  all_goals first | exact k | exact frame_supplyPage h hn _ _ k

theorem frame_grantFrame (hr : Part.recorders ∈ m) (hp : Part.pages ∈ m) (hl : Part.links ∈ m) (a : Angle) (n page : Nat)
    (k : Frame m s t) : Frame m s (t.grantFrame a n page) := by
  unfold State.grantFrame
  dsimp only
  have k' := fun f => frame_modRecorder hr a f (frame_modPage hp page
    (fun p => { p with count := p.count + 1, writeHolds := p.writeHolds + 1 }) (fun _ => by rfl) k)
  split
  · exact k' _
  · exact frame_raiseAngleAlert hl _ (k' _)

theorem frame_answerIngest (h : Part.ingestOut ∈ m) (x : IngestAnswer) (k : Frame m s t) : Frame m s (t.answerIngest x) :=
  frame_ingestOut h _ k

theorem frame_refuseNotice (hr : Part.recorders ∈ m) (hi : Part.ingestOut ∈ m) (hl : Part.links ∈ m) (a : Angle)
    (angle : BitVec 4) (stamp : BitVec 16) (phase : BitVec 3) (kind : RefusalKind) (k : Frame m s t) :
    Frame m s (t.refuseNotice a angle stamp phase kind) := by
  unfold State.refuseNotice
  refine frame_answerIngest hi _ ?_
  split
  · exact frame_raiseAngleAlert hl _ (frame_modRecCounts hr _ _ k)
  · exact frame_modRecCounts hr _ _ k

theorem frame_takeNotice (hr : Part.recorders ∈ m) (hi : Part.ingestOut ∈ m) (hl : Part.links ∈ m) (hp : Part.pages ∈ m)
    (hn : Part.pageNumbers ∈ m) (a : Angle) (angle : BitVec 4) (stamp : BitVec 16) (phase : BitVec 3) (k : Frame m s t) :
    Frame m s (t.takeNotice a angle stamp phase) := by
  have k1 := frame_modRecorder hr a (fun r => { r with present := true, silence := 0 }) k
  unfold State.takeNotice
  dsimp only
  split
  · exact frame_refuseNotice hr hi hl _ _ _ _ _ k1
  · next n _ =>
    have k2 := frame_findPage hp hn a n k1
    split
    · next h => rw [h] at k2; exact frame_refuseNotice hr hi hl _ _ _ _ _ k2
    · next h => rw [h] at k2; exact frame_answerIngest hi _ (frame_grantFrame hr hp hl _ _ _ k2)

theorem frame_completeWrite (hr : Part.recorders ∈ m) (hp : Part.pages ∈ m) (hl : Part.links ∈ m) (a : Angle)
    (w : PendingWrite) (ok : Bool) (k : Frame m s t) : Frame m s (t.completeWrite a w ok) := by
  cases ok
  · exact frame_raiseAngleAlert hl _ (frame_modRecorder hr _ _ (frame_modPage hp _ _ (fun _ => by rfl) k))
  · exact frame_modRecorder hr _ _ (frame_modPage hp _ _ (fun _ => by rfl) k)

theorem frame_takeCompletion (hr : Part.recorders ∈ m) (hp : Part.pages ∈ m) (hl : Part.links ∈ m) (a : Angle)
    (slot : Nat) (ok : Bool) (k : Frame m s t) : Frame m s (t.takeCompletion a slot ok) := by
  unfold State.takeCompletion
  repeat' split
  all_goals first | exact frame_completeWrite hr hp hl _ _ _ k | exact frame_modRecCounts hr _ _ k

theorem frame_loseAngle (hr : Part.recorders ∈ m) (hl : Part.links ∈ m) (a : Angle) (k : Frame m s t) :
    Frame m s (t.loseAngle a) := by
  unfold State.loseAngle
  dsimp only
  split
  · exact frame_raiseAngleAlert hl _ (frame_modRecorder hr _ _ k)
  · exact k

theorem frame_raiseSilence (hr : Part.recorders ∈ m) (hl : Part.links ∈ m) (a : Angle) (k : Frame m s t) :
    Frame m s (t.raiseSilence a) := by
  unfold State.raiseSilence
  dsimp only
  split
  · exact frame_loseAngle hr hl _ k
  · exact frame_modRecorder hr _ _ k

theorem frame_haltAngle (hr : Part.recorders ∈ m) (hp : Part.pages ∈ m) (a : Angle) (k : Frame m s t) :
    Frame m s (t.haltAngle a) := by
  unfold State.haltAngle
  split
  · exact frame_sealAngle hp _ (frame_modRecorder hr _ _ k)
  · exact k

theorem frame_recorderWork (hr : Part.recorders ∈ m) (hp : Part.pages ∈ m) (hl : Part.links ∈ m) (k : Frame m s t) :
    Frame m s t.recorderWork := by
  unfold State.recorderWork
  refine Frame.foldl _ _ (fun _ _ hu => frame_raiseSilence hr hl _ hu) ?_
  split
  · exact Frame.foldl _ _ (fun _ _ hu => frame_haltAngle hr hp _ hu) k
  · exact k

theorem frame_onAngle (angle : Byte) (rule : Angle → State → State × Reply)
    (hr : ∀ a u, Frame m s u → Frame m s (rule a u).1) (k : Frame m s t) : Frame m s (onAngle angle rule t).1 := by
  unfold onAngle
  split
  · exact hr _ _ k
  · exact k

theorem frame_recStartRule (hr : Part.recorders ∈ m) (a : Angle) (k : Frame m s t) : Frame m s (recStartRule a t).1 := by
  unfold recStartRule
  repeat' split
  all_goals first | exact k | exact frame_modRecorder hr _ _ k

theorem frame_recStopRule (hr : Part.recorders ∈ m) (hp : Part.pages ∈ m) (a : Angle) (k : Frame m s t) :
    Frame m s (recStopRule a t).1 := by
  unfold recStopRule
  repeat' split
  all_goals first | exact k | exact frame_sealAngle hp _ (frame_modRecorder hr _ _ k)

theorem frame_angleSetRule (hr : Part.recorders ∈ m) (hp : Part.pages ∈ m) (hn : Part.pageNumbers ∈ m) (rm quota : Nat)
    (a : Angle) (k : Frame m s t) : Frame m s (angleSetRule rm quota a t).1 := by
  unfold angleSetRule
  repeat' split
  all_goals first | exact k | exact frame_modRecorder hr _ _ (frame_emptyAngle hp hn _ k)

end Sys2Proof.Machine
end

