-- ==== Sys2Proof/Laws/ChannelFrames.lean ====
section
/-! SUPPORT. Laws/ChannelFrames.lean: the parts of the state that the operations of the replay channels and of the fetch port
may change. -/

namespace Sys2Proof.Machine

variable {m : List Part} {s t : State}

/-! ### Motion -/

theorem frame_writeHead (hh : Part.channels ∈ m) (hp : Part.pages ∈ m) (c : Chan) (h : Playhead) (k : Frame m s t) :
    Frame m s (t.writeHead c h) :=
  frame_modChan hh _ _ (fun _ => by rfl) (fun _ => ⟨by rfl, by rfl⟩) (frame_movePin hp _ _ k)

theorem frame_followOne (hh : Part.channels ∈ m) (hp : Part.pages ∈ m) (l f : Chan) (k : Frame m s t) :
    Frame m s (t.followOne l f) := by
  unfold State.followOne
  split
  · exact frame_writeHead hh hp _ _ k
  · exact k

theorem frame_moveFollowers (hh : Part.channels ∈ m) (hp : Part.pages ∈ m) (l : Chan) (k : Frame m s t) :
    Frame m s (t.moveFollowers l) := Frame.foldl _ _ (fun _ _ hu => frame_followOne hh hp _ _ hu) k

theorem frame_place (hh : Part.channels ∈ m) (hp : Part.pages ∈ m) (c : Chan) (h : Playhead) (k : Frame m s t) :
    Frame m s (t.place c h) := frame_moveFollowers hh hp _ (frame_writeHead hh hp _ _ k)

theorem frame_steer (hh : Part.channels ∈ m) (hp : Part.pages ∈ m) (c : Chan) (f : Playhead → Playhead)
    (k : Frame m s t) : Frame m s (t.steer c f) := frame_moveFollowers hh hp _ (frame_modHead hh _ _ k)

theorem frame_leaveClip (hh : Part.channels ∈ m) (hp : Part.pages ∈ m) (hc : Part.clips ∈ m) (c : Chan)
    (k : Frame m s t) : Frame m s (t.leaveClip c) := by
  unfold State.leaveClip
  repeat' split
  all_goals first
    | exact k
    | exact frame_dropUse hp hc _ _ (frame_modChan hh _ _ (fun _ => by rfl) (fun _ => ⟨by rfl, by rfl⟩) k)

theorem frame_unlinkFollower (hh : Part.channels ∈ m) (f : Chan) (k : Frame m s t) : Frame m s (t.unlinkFollower f) := by
  unfold State.unlinkFollower
  split
  · refine frame_modChan hh _ _ (fun _ => by rfl) (fun _ => ⟨by rfl, by rfl⟩)
      (frame_modChan hh _ _ (fun ch => ?_) (fun ch => ?_) k)
    · split <;> rfl
    · split <;> exact ⟨rfl, rfl⟩
  · exact k

theorem frame_leaveGang (hh : Part.channels ∈ m) (f : Chan) (k : Frame m s t) : Frame m s (t.leaveGang f) := by
  unfold State.leaveGang
  split
  · exact frame_modHead hh _ _ (frame_unlinkFollower hh _ k)
  · exact k

theorem frame_breakGang (hh : Part.channels ∈ m) (c : Chan) (k : Frame m s t) : Frame m s (t.breakGang c) := by
  unfold State.breakGang
  split
  · exact k
  · exact frame_leaveGang hh _ k
  · exact frame_modChan hh _ _ (fun _ => by rfl) (fun _ => ⟨by rfl, by rfl⟩)
      (Frame.foldl _ _ (fun _ _ hu => frame_leaveGang hh _ hu) k)

theorem frame_enterIdle (hh : Part.channels ∈ m) (hp : Part.pages ∈ m) (hc : Part.clips ∈ m) (c : Chan)
    (k : Frame m s t) : Frame m s (t.enterIdle c) := by
  unfold State.enterIdle
  split
  · exact k
  · dsimp only
    refine frame_modChan hh _ _ (fun _ => by rfl) (fun _ => ⟨by rfl, by rfl⟩) (frame_movePin hp _ _ ?_)
    have k' := frame_leaveClip hh hp hc c k
    split
    · exact frame_unlinkFollower hh _ k'
    · exact frame_breakGang hh _ k'

theorem frame_pauseShuttle (hh : Part.channels ∈ m) (hp : Part.pages ∈ m) (c : Chan) (k : Frame m s t) :
    Frame m s (t.pauseShuttle c) := by
  unfold State.pauseShuttle
  repeat' split
  all_goals first | exact k | exact frame_steer hh hp _ _ k

theorem frame_settleLevers (hh : Part.channels ∈ m) (hp : Part.pages ∈ m) (before : State) (k : Frame m s t) :
    Frame m s (t.settleLevers before) := by
  refine Frame.foldl _ _ (fun u j hu => ?_) k
  split
  · split
    · exact hu
    · exact frame_pauseShuttle hh hp _ hu
  · exact hu

theorem frame_changeAngle (hh : Part.channels ∈ m) (hp : Part.pages ∈ m) (c : Chan) (a : Angle) (h : Playhead)
    (k : Frame m s t) : Frame m s (t.changeAngle c a h) := frame_place hh hp _ _ k

/-! ### Playback -/

theorem frame_noteLimited (hh : Part.channels ∈ m) (hl : Part.links ∈ m) (c : Chan) (b : Bool) (k : Frame m s t) :
    Frame m s (t.noteLimited c b) := by
  unfold State.noteLimited
  split
  · exact frame_raiseChanAlert hl _ _ (frame_modChanCounts hh _ _ k)
  · exact k

theorem frame_enterClip (hh : Part.channels ∈ m) (hp : Part.pages ∈ m) (hc : Part.clips ∈ m) (hl : Part.links ∈ m)
    (c : Chan) (clip : Clip) (a : Angle) (pace : CuePace) (running : Bool) (k : Frame m s t) :
    Frame m s (t.enterClip c clip a pace running) :=
  frame_place hh hp _ _ (frame_modChan hh _ _ (fun _ => by rfl) (fun _ => ⟨by rfl, by rfl⟩)
    (frame_noteLimited hh hl _ _ (frame_addUse hc _ _ (frame_leaveClip hh hp hc _ k))))

theorem frame_skipCue (hh : Part.channels ∈ m) (hl : Part.links ∈ m) (c : Chan) (k : Frame m s t) :
    Frame m s (t.skipCue c) := frame_raiseChanAlert hl _ _ (frame_modChanCounts hh _ _ k)

theorem frame_modCues (hq : Part.cues ∈ m) (c : Chan) (f : Channel → Channel) (hr : ∀ ch, (f ch).rest = ch.rest)
    (hf : ∀ ch, (f ch).inFlight = ch.inFlight ∧ (f ch).nextTag = ch.nextTag) (k : Frame m s t) :
    Frame m s (t.modChan c f) := frame_modChan_any c f (.inr hr) (.inl hq) (.inr hf) k

theorem frame_takeCues (hq : Part.cues ∈ m) (hh : Part.channels ∈ m) (hp : Part.pages ∈ m) (hc : Part.clips ∈ m)
    (hl : Part.links ∈ m) (c : Chan) (l : List Cue) (k : Frame m s t) : Frame m s (t.takeCues c l).1 := by
  induction l generalizing t with
  | nil => exact frame_modCues hq _ _ (fun _ => by rfl) (fun _ => ⟨by rfl, by rfl⟩) k
  | cons q rest ih =>
    unfold State.takeCues
    split
    · exact frame_enterClip hh hp hc hl _ _ _ _ _ (frame_modCues hq _ _ (fun _ => by rfl) (fun _ => ⟨by rfl, by rfl⟩) k)
    · exact ih (frame_skipCue hh hl _ k)

theorem frame_takeNextCue (hq : Part.cues ∈ m) (hh : Part.channels ∈ m) (hp : Part.pages ∈ m) (hc : Part.clips ∈ m)
    (hl : Part.links ∈ m) (c : Chan) (k : Frame m s t) : Frame m s (t.takeNextCue c).1 :=
  frame_takeCues hq hh hp hc hl _ _ k

theorem frame_endHold (hh : Part.channels ∈ m) (hp : Part.pages ∈ m) (c : Chan) (h : Playhead) (ctx : ClipContext)
    (o : Nat) (k : Frame m s t) : Frame m s (t.endHold c h ctx o) := frame_place hh hp _ _ k

theorem frame_clipAdvance (hq : Part.cues ∈ m) (hh : Part.channels ∈ m) (hp : Part.pages ∈ m) (hc : Part.clips ∈ m)
    (hl : Part.links ∈ m) (c : Chan) (h : Playhead) (ctx : ClipContext) (clip : Clip) (k : Frame m s t) :
    Frame m s (t.clipAdvance c h ctx clip) := by
  unfold State.clipAdvance
  dsimp only
  repeat' split
  all_goals first
    | exact frame_place hh hp _ _ k
    | skip
  unfold State.endBoundary
  dsimp only
  have k' := frame_takeNextCue hq hh hp hc hl c
    (frame_modChan hh c (fun ch => { ch with staged := false }) (fun _ => by rfl) (fun _ => ⟨by rfl, by rfl⟩) k)
  split
  · exact k'
  · exact frame_endHold hh hp _ _ _ _ k'

theorem frame_playClip (hh : Part.channels ∈ m) (hp : Part.pages ∈ m) (hl : Part.links ∈ m) (c : Chan)
    (ctx : ClipContext) (pace : Option CuePace) (k : Frame m s t) : Frame m s (t.playClip c ctx pace) := by
  unfold State.playClip
  repeat' split
  all_goals first
    | exact k
    | exact frame_steer hh hp _ _ k
    | exact frame_steer hh hp _ _ (frame_noteLimited hh hl _ _ k)

theorem frame_loadClipRule (hh : Part.channels ∈ m) (hp : Part.pages ∈ m) (hc : Part.clips ∈ m) (hl : Part.links ∈ m)
    (stn : Station) (id serial : BitVec 16) (angle : Byte) (pace : Pace) (c : Chan) (k : Frame m s t) :
    Frame m s (loadClipRule stn id serial angle pace c t).1 := by
  unfold loadClipRule
  dsimp only
  repeat' split
  all_goals first | exact k | exact frame_enterClip hh hp hc hl _ _ _ _ _ k

theorem frame_cueNext (hq : Part.cues ∈ m) (hh : Part.channels ∈ m) (hp : Part.pages ∈ m) (hc : Part.clips ∈ m)
    (hl : Part.links ∈ m) (c : Chan) (k : Frame m s t) : Frame m s (t.cueNext c).1 := by
  unfold State.cueNext
  split
  · exact frame_modChan hh _ _ (fun _ => by rfl) (fun _ => ⟨by rfl, by rfl⟩) k
  · exact frame_takeNextCue hq hh hp hc hl _
      (frame_modChan hh _ _ (fun _ => by rfl) (fun _ => ⟨by rfl, by rfl⟩) k)

/-! ### Channels -/

theorem frame_play (hh : Part.channels ∈ m) (hp : Part.pages ∈ m) (hl : Part.links ∈ m) (c : Chan) (preset : Int)
    (pace : Option CuePace) (k : Frame m s t) : Frame m s (t.play c preset pace) := by
  unfold State.play
  repeat' split
  all_goals first | exact k | exact frame_playClip hh hp hl _ _ _ k | exact frame_steer hh hp _ _ k

theorem frame_disarm (hl : Part.links ∈ m) (stn : Station) (c : Chan) (k : Frame m s t) : Frame m s (t.disarm stn c) := by
  unfold State.disarm
  split
  · exact frame_modLink hl _ _ (fun _ => ⟨by rfl, by rfl⟩) k
  · exact k

theorem frame_pause (hh : Part.channels ∈ m) (hp : Part.pages ∈ m) (c : Chan) (k : Frame m s t) :
    Frame m s (t.pause c) := by
  unfold State.pause
  repeat' split
  all_goals first | exact k | exact frame_steer hh hp _ _ k

theorem frame_goLive (hh : Part.channels ∈ m) (hp : Part.pages ∈ m) (hc : Part.clips ∈ m) (c : Chan) (k : Frame m s t) :
    Frame m s (t.goLive c) := by
  unfold State.goLive
  split
  · exact k
  · exact frame_place hh hp _ _ (frame_leaveClip hh hp hc _ k)

theorem frame_onLeader (rule : Chan → State → State) (hr : ∀ c u, Frame m s u → Frame m s (rule c u)) (c : Chan)
    (k : Frame m s t) : Frame m s (onLeader rule c t).1 := by
  unfold onLeader
  split
  · exact k
  · exact hr _ _ k

theorem frame_loadRule (hh : Part.channels ∈ m) (hp : Part.pages ∈ m) (hc : Part.clips ∈ m) (angle : Byte)
    (hf : BitVec 32) (c : Chan) (k : Frame m s t) : Frame m s (loadRule angle hf c t).1 := by
  unfold loadRule
  repeat' split
  all_goals first | exact k | exact frame_place hh hp _ _ (frame_leaveClip hh hp hc _ k)

theorem frame_angleRule (hh : Part.channels ∈ m) (hp : Part.pages ∈ m) (angle : Byte) (c : Chan) (k : Frame m s t) :
    Frame m s (angleRule angle c t).1 := by
  unfold angleRule
  repeat' split
  all_goals first | exact k | exact frame_changeAngle hh hp _ _ _ k

theorem frame_joinGang (hh : Part.channels ∈ m) (hp : Part.pages ∈ m) (hc : Part.clips ∈ m) (l : Chan) (fs : List Chan)
    (k : Frame m s t) : Frame m s (t.joinGang l fs) := by
  unfold State.joinGang
  refine frame_moveFollowers hh hp _ (frame_modChan hh _ _ (fun _ => by rfl) (fun _ => ⟨by rfl, by rfl⟩) ?_)
  exact Frame.foldl _ _ (fun _ _ hu => frame_modChan hh _ _ (fun _ => by rfl) (fun _ => ⟨by rfl, by rfl⟩)
    (frame_leaveClip hh hp hc _ hu)) k

theorem frame_gangRule (hh : Part.channels ∈ m) (hp : Part.pages ∈ m) (hc : Part.clips ∈ m) (stn : Station)
    (leader : Byte) (fs : List Byte) (k : Frame m s t) : Frame m s (gangRule stn leader fs t).1 := by
  unfold gangRule
  repeat' split
  all_goals first | exact k | exact frame_settleLevers hh hp _ (frame_joinGang hh hp hc _ _ k)

theorem frame_engage (hh : Part.channels ∈ m) (hp : Part.pages ∈ m) (hc : Part.clips ∈ m) (c : Chan) (speed : Int)
    (k : Frame m s t) : Frame m s (t.engage c speed) := by
  unfold State.engage
  repeat' split
  all_goals first | exact k | exact frame_steer hh hp _ _ (frame_leaveClip hh hp hc _ k)

theorem frame_shuttleSpeed (hh : Part.channels ∈ m) (hp : Part.pages ∈ m) (c : Chan) (speed : Int) (k : Frame m s t) :
    Frame m s (t.shuttleSpeed c speed) := by
  unfold State.shuttleSpeed
  repeat' split
  all_goals first | exact k | exact frame_steer hh hp _ _ k

theorem frame_leverWork (hh : Part.channels ∈ m) (hp : Part.pages ∈ m) (hc : Part.clips ∈ m) (hl : Part.links ∈ m)
    (j : Station) (lever : Int) (k : Frame m s t) : Frame m s (t.leverWork j lever) := by
  unfold State.leverWork
  dsimp only
  have k' := fun f hf => frame_modLink hl j f hf k
  split
  · exact k' _ (fun _ => ⟨by rfl, by rfl⟩)
  · refine frame_shuttleSpeed hh hp _ _ ?_
    repeat' split
    all_goals first
      | exact frame_engage hh hp hc _ _ (k' _ (fun _ => ⟨by rfl, by rfl⟩))
      | exact frame_pauseShuttle hh hp _ (k' _ (fun _ => ⟨by rfl, by rfl⟩))
      | exact k' _ (fun _ => ⟨by rfl, by rfl⟩)

theorem frame_jogHead (hh : Part.channels ∈ m) (hp : Part.pages ∈ m) (c : Chan) (n : Int) (k : Frame m s t) :
    Frame m s (t.jogHead c n) := by
  unfold State.jogHead
  cases (t.chan c).head with
  | none => exact k
  | some h => exact frame_place hh hp _ _ k

theorem frame_jogWork (hh : Part.channels ∈ m) (hp : Part.pages ∈ m) (hl : Part.links ∈ m) (j : Station) (n : Int)
    (k : Frame m s t) : Frame m s (t.jogWork j n) := by
  unfold State.jogWork
  repeat' split
  all_goals first | exact k | exact frame_keyIgnored hl _ k | exact frame_jogHead hh hp _ _ k

/-! ### Fetches -/

theorem frame_issue (hf : Part.fetches ∈ m) (hh : Part.channels ∈ m) (hp : Part.pages ∈ m) (ho : Part.fetchOut ∈ m)
    (c : Chan) (sel : Option Selected) (k : Frame m s t) : Frame m s (t.issue c sel) := by
  unfold State.issue
  dsimp only
  split
  · exact frame_modChanCounts hh _ _ k
  · exact frame_fetchOut ho _ (frame_modChan_any _ _ (.inl hh) (.inr fun _ => by rfl) (.inl hf)
      (frame_modPage? hp _ _ (fun _ => by rfl) (frame_modPage? hp _ _ (fun _ => by rfl) k)))

theorem frame_requestFor (hf : Part.fetches ∈ m) (hh : Part.channels ∈ m) (hp : Part.pages ∈ m) (ho : Part.fetchOut ∈ m)
    (c : Chan) (k : Frame m s t) : Frame m s (t.requestFor c) := by
  unfold State.requestFor
  repeat' split
  all_goals first | exact k | exact frame_issue hf hh hp ho _ _ k | exact frame_modChanCounts hh _ _ k

theorem frame_fetchCompleted (hf : Part.fetches ∈ m) (hh : Part.channels ∈ m) (hp : Part.pages ∈ m) (hl : Part.links ∈ m)
    (c : Chan) (tag : Nat) (ok : Bool) (k : Frame m s t) : Frame m s (t.fetchCompleted c tag ok) := by
  unfold State.fetchCompleted
  split
  · exact frame_modChanCounts hh _ _ k
  · next older e newer _ =>
    have k' := frame_releaseFetch hp e k
    have k1 := frame_modChan_any c (completeOk e older newer) (.inl hh)
      (.inr fun ch => by unfold completeOk; split <;> rfl) (.inl hf) k'
    have k2 := frame_modChan_any c (completeFault e older newer) (.inl hh) (.inr fun ch => by rfl) (.inl hf) k'
    dsimp only
    repeat' split
    all_goals first | exact k1 | exact k2 | exact frame_raiseChanAlert hl _ _ k2

end Sys2Proof.Machine
end

