-- ==== Sys2Proof/Laws/ControlFrames.lean ====
section
/-! SUPPORT. Laws/ControlFrames.lean: the parts of the state that the operations of the arbiter, the links, the house frame
event and the automation commands may change. -/

namespace Sys2Proof.Machine

variable {m : List Part} {s t : State}

/-! ### Claims and routing -/

theorem frame_holderChanged (hh : Part.channels ∈ m) (hp : Part.pages ∈ m) (before : State) (c : Chan)
    (k : Frame m s t) : Frame m s (t.holderChanged before c) := frame_settleLevers hh hp _ (frame_breakGang hh _ k)

theorem frame_deselect (hl : Part.links ∈ m) (j : Station) (c : Chan) (k : Frame m s t) : Frame m s (t.deselect j c) :=
  frame_modLink hl _ _ (fun _ => ⟨by rfl, by rfl⟩) k

theorem frame_grant (ha : Part.claims ∈ m) (hh : Part.channels ∈ m) (hp : Part.pages ∈ m) (hl : Part.links ∈ m)
    (c : Chan) (j : Station) (k : Frame m s t) : Frame m s (t.grant c j) := by
  unfold State.grant
  dsimp only
  refine frame_holderChanged hh hp _ _ (frame_modLink hl _ _ (fun _ => ⟨by rfl, by rfl⟩) ?_)
  have k' := frame_answerClaim hl j c .ok (frame_setPendingClaim ha j none (frame_setHolder ha c (some j) k))
  split
  · exact k'
  · exact frame_deselect hl _ _ k'

theorem frame_releaseChan (ha : Part.claims ∈ m) (hh : Part.channels ∈ m) (hp : Part.pages ∈ m) (hl : Part.links ∈ m)
    (j : Station) (c : Chan) (k : Frame m s t) : Frame m s (t.releaseChan j c) :=
  frame_holderChanged hh hp _ _ (frame_deselect hl _ _ (frame_setHolder ha _ _ k))

theorem frame_releaseStation (ha : Part.claims ∈ m) (hh : Part.channels ∈ m) (hp : Part.pages ∈ m) (hl : Part.links ∈ m)
    (j : Station) (k : Frame m s t) : Frame m s (t.releaseStation j) := by
  unfold State.releaseStation
  dsimp only
  have k' : Frame m s (allChans.foldl (fun t c => if t.holder c = some j then t.releaseChan j c else t) t) :=
    Frame.foldl _ _ (fun u c hu => Frame.ite (frame_releaseChan ha hh hp hl _ _ hu) hu) k
  split
  · exact frame_answerClaim hl _ _ _ (frame_setPendingClaim ha _ _ k')
  · exact k'

theorem frame_endCoolDown (ha : Part.claims ∈ m) (j : Station) (c : Chan) (k : Frame m s t) :
    Frame m s (t.endCoolDown j c) := by
  unfold State.endCoolDown
  repeat' split
  all_goals first | exact k | exact frame_setCoolDown ha _ _ _ k

theorem frame_updateCoolDown (ha : Part.claims ∈ m) (j : Station) (c : Chan) (k : Frame m s t) :
    Frame m s (t.updateCoolDown j c) := by
  unfold State.updateCoolDown
  repeat' split
  all_goals first | exact k | exact frame_setCoolDown ha _ _ _ k | exact frame_endCoolDown ha _ _ k

theorem frame_grantChan (ha : Part.claims ∈ m) (hh : Part.channels ∈ m) (hp : Part.pages ∈ m) (hl : Part.links ∈ m)
    (c : Chan) (k : Frame m s t) : Frame m s (t.grantChan c) := by
  unfold State.grantChan
  repeat' split
  all_goals first | exact k | exact frame_grant ha hh hp hl _ _ k

theorem frame_timeOutClaim (ha : Part.claims ∈ m) (hl : Part.links ∈ m) (j : Station) (k : Frame m s t) :
    Frame m s (t.timeOutClaim j) := by
  unfold State.timeOutClaim
  repeat' split
  all_goals first | exact k | exact frame_answerClaim hl _ _ _ (frame_setPendingClaim ha _ _ k)

theorem frame_ageClaim (ha : Part.claims ∈ m) (hl : Part.links ∈ m) (j : Station) (k : Frame m s t) :
    Frame m s (t.ageClaim j) := by
  unfold State.ageClaim
  repeat' split
  all_goals first | exact k | exact frame_timeOutClaim ha hl _ k | exact frame_setPendingClaim ha _ _ k

theorem frame_arbiterWork (ha : Part.claims ∈ m) (hh : Part.channels ∈ m) (hp : Part.pages ∈ m) (hl : Part.links ∈ m)
    (k : Frame m s t) : Frame m s t.arbiterWork :=
  Frame.foldl _ _ (fun _ _ hu => frame_ageClaim ha hl _ hu)
    (Frame.foldl _ _ (fun _ _ hu => frame_grantChan ha hh hp hl _ hu)
      (Frame.foldl _ _ (fun _ _ hu => Frame.foldl _ _ (fun _ _ hv => frame_updateCoolDown ha _ _ hv) hu) k))

theorem frame_selectRule (hh : Part.channels ∈ m) (hp : Part.pages ∈ m) (hl : Part.links ∈ m) (stn : Station)
    (x : Option Chan) (k : Frame m s t) : Frame m s (selectRule stn x t).1 :=
  frame_settleLevers hh hp _ (frame_modLink hl _ _ (fun _ => ⟨by rfl, by rfl⟩) k)

theorem frame_claimRule (ha : Part.claims ∈ m) (stn : Station) (channel : Byte) (k : Frame m s t) :
    Frame m s (claimRule stn channel t).1 := by
  unfold claimRule
  repeat' split
  all_goals first | exact k | exact frame_setPendingClaim ha _ _ k

theorem frame_cancelRule (ha : Part.claims ∈ m) (hl : Part.links ∈ m) (stn : Station) (k : Frame m s t) :
    Frame m s (cancelRule stn t).1 := by
  unfold cancelRule
  dsimp only
  repeat' split
  all_goals first
    | exact k
    | exact frame_setPendingClaim ha _ _ k
    | exact frame_modLink hl _ _ (fun _ => ⟨by rfl, by rfl⟩) k

theorem frame_releaseRule (ha : Part.claims ∈ m) (hh : Part.channels ∈ m) (hp : Part.pages ∈ m) (hl : Part.links ∈ m)
    (stn : Station) (c : Chan) (k : Frame m s t) : Frame m s (releaseRule stn c t).1 := by
  unfold releaseRule
  split
  · exact frame_setCoolDown ha _ _ _ (frame_releaseChan ha hh hp hl _ _ k)
  · exact k

theorem frame_forceReleaseRule (ha : Part.claims ∈ m) (hh : Part.channels ∈ m) (hp : Part.pages ∈ m)
    (hl : Part.links ∈ m) (channel : Byte) (k : Frame m s t) : Frame m s (forceReleaseRule channel t).1 := by
  unfold forceReleaseRule
  repeat' split
  all_goals first | exact k | exact frame_setCoolDown ha _ _ _ (frame_releaseChan ha hh hp hl _ _ k)

theorem frame_onRoute (stn : Station) (channel : Byte) (rule : Chan → State → State × Reply)
    (hr : ∀ c u, Frame m s u → Frame m s (rule c u).1) (k : Frame m s t) :
    Frame m s (onRoute stn channel rule t).1 := by
  unfold onRoute
  repeat' split
  all_goals first | exact k | exact hr _ _ k

theorem frame_cutRule (hr : Part.routes ∈ m) (c : Chan) (k : Frame m s t) : Frame m s (cutRule c t).1 := by
  unfold cutRule
  dsimp only
  repeat' split
  all_goals first | exact k | exact frame_routes hr _ _ k

theorem frame_previewRule (hr : Part.routes ∈ m) (c : Chan) (k : Frame m s t) : Frame m s (previewRule c t).1 := by
  unfold previewRule
  repeat' split
  all_goals first | exact k | exact frame_routes hr _ _ k

theorem frame_swapRoutes (hr : Part.routes ∈ m) (k : Frame m s t) : Frame m s t.swapRoutes := frame_routes hr _ _ k

/-! ### Reports and links -/

theorem frame_listRule (hl : Part.links ∈ m) (stn : Station) (f : Filter) (k : Frame m s t) :
    Frame m s (listRule stn f t).1 := by
  unfold listRule
  split
  · exact k
  · exact frame_modLink hl _ _ (fun _ => ⟨by rfl, by rfl⟩) k

theorem frame_sendReport (hl : Part.links ∈ m) (hd : Part.draws ∈ m) (j : Station) (k : Frame m s t) :
    Frame m s (t.sendReport j) := by
  unfold State.sendReport
  dsimp only
  repeat' split
  all_goals first
    | exact k
    | exact frame_modLinkCounts hl _ _ k
    | exact frame_nextDraw hd (frame_modLink hl _ _ (fun _ => ⟨by rfl, by rfl⟩) k)

theorem frame_reportWork (hl : Part.links ∈ m) (hd : Part.draws ∈ m) (j : Station) (k : Frame m s t) :
    Frame m s (t.reportWork j) := frame_modLink hl _ _ (fun _ => ⟨by rfl, by rfl⟩) (frame_sendReport hl hd _ k)

theorem frame_enterSession (hs : Part.linkStates ∈ m) (hh : Part.channels ∈ m) (hp : Part.pages ∈ m)
    (hl : Part.links ∈ m) (j : Station) (x : LinkState) (k : Frame m s t) : Frame m s (t.enterSession j x) :=
  frame_settleLevers hh hp _ (frame_modLink_any _ _ (.inl hl) (.inl hs) k)

theorem frame_pauseMoving (hh : Part.channels ∈ m) (hp : Part.pages ∈ m) (c : Chan) (k : Frame m s t) :
    Frame m s (t.pauseMoving c) := by
  unfold State.pauseMoving
  repeat' split
  all_goals first | exact k | exact frame_steer hh hp _ _ k

theorem frame_pauseStation (hh : Part.channels ∈ m) (hp : Part.pages ∈ m) (j : Station) (k : Frame m s t) :
    Frame m s (t.pauseStation j) :=
  Frame.foldl _ _ (fun _ _ hu => Frame.ite (frame_pauseMoving hh hp _ hu) hu) k

theorem frame_loseLink (hs : Part.linkStates ∈ m) (hh : Part.channels ∈ m) (hp : Part.pages ∈ m) (hl : Part.links ∈ m)
    (j : Station) (k : Frame m s t) : Frame m s (t.loseLink j) := by
  unfold State.loseLink
  dsimp only
  split
  · exact frame_pauseStation hh hp _ (frame_modLink_any _ _ (.inl hl) (.inl hs) k)
  · exact k

theorem frame_expireGrace (hs : Part.linkStates ∈ m) (ha : Part.claims ∈ m) (hh : Part.channels ∈ m) (hp : Part.pages ∈ m)
    (hc : Part.clips ∈ m) (hl : Part.links ∈ m) (j : Station) (k : Frame m s t) : Frame m s (t.expireGrace j) := by
  unfold State.expireGrace
  dsimp only
  split
  · exact frame_modLinkCounts hl _ _ (frame_enterSession hs hh hp hl _ _
      (frame_graceMarkOut hp hc _ (frame_releaseStation ha hh hp hl _ k)))
  · exact k

theorem frame_watchLink (hs : Part.linkStates ∈ m) (ha : Part.claims ∈ m) (hh : Part.channels ∈ m) (hp : Part.pages ∈ m)
    (hc : Part.clips ∈ m) (hl : Part.links ∈ m) (j : Station) (k : Frame m s t) : Frame m s (t.watchLink j) := by
  unfold State.watchLink
  dsimp only
  repeat' split
  all_goals first
    | exact k
    | exact frame_loseLink hs hh hp hl _ k
    | exact frame_expireGrace hs ha hh hp hc hl _ k
    | exact frame_modLink hl _ _ (fun _ => ⟨by rfl, by rfl⟩) k

theorem frame_setEnable (hs : Part.linkStates ∈ m) (ha : Part.claims ∈ m) (hh : Part.channels ∈ m) (hp : Part.pages ∈ m)
    (hl : Part.links ∈ m) (j : Station) (e : Bool) (k : Frame m s t) : Frame m s (t.setEnable j e) := by
  unfold State.setEnable State.disableLink
  split
  · exact frame_modLink_any _ _ (.inl hl) (.inl hs) (frame_enterSession hs hh hp hl _ _
      (frame_releaseStation ha hh hp hl _ k))
  · exact frame_modLink_any _ _ (.inl hl) (.inl hs) (frame_enterSession hs hh hp hl _ _ k)
  · exact k

theorem frame_linkSetRule (hs : Part.linkStates ∈ m) (ha : Part.claims ∈ m) (hh : Part.channels ∈ m) (hp : Part.pages ∈ m)
    (hl : Part.links ∈ m) (j e d : Byte) (k : Frame m s t) : Frame m s (linkSetRule j e d t).1 := by
  unfold linkSetRule
  dsimp only
  repeat' split
  all_goals first
    | exact k
    | exact frame_modLink hl _ _ (fun _ => ⟨by rfl, by rfl⟩) (frame_setEnable hs ha hh hp hl _ _ k)

/-! ### The house frame event -/

theorem frame_moveHead (hh : Part.channels ∈ m) (hp : Part.pages ∈ m) (c : Chan) (h : Playhead) (k : Frame m s t) :
    Frame m s (t.moveHead c h) := by
  unfold State.moveHead
  dsimp only
  repeat' split
  all_goals exact frame_place hh hp _ _ k

theorem frame_advance (hq : Part.cues ∈ m) (hh : Part.channels ∈ m) (hp : Part.pages ∈ m) (hc : Part.clips ∈ m)
    (hl : Part.links ∈ m) (c : Chan) (k : Frame m s t) : Frame m s (t.advance c) := by
  unfold State.advance
  repeat' split
  all_goals first
    | exact k
    | exact frame_place hh hp _ _ k
    | exact frame_moveHead hh hp _ _ k
    | exact frame_clipAdvance hq hh hp hc hl _ _ _ _ k

/-- The parts that the reactions to a house frame event may change lie in `m`. -/
structure HouseParts (m : List Part) : Prop where
  recorders : Part.recorders ∈ m
  pages : Part.pages ∈ m
  clips : Part.clips ∈ m
  cues : Part.cues ∈ m
  fetches : Part.fetches ∈ m
  channels : Part.channels ∈ m
  out : Part.fetchOut ∈ m
  claims : Part.claims ∈ m
  states : Part.linkStates ∈ m
  links : Part.links ∈ m
  draws : Part.draws ∈ m

theorem frame_channelWork (H : HouseParts m) (c : Chan) (w : State × List Chan) (k : Frame m s w.1) :
    Frame m s (channelWork c w).1 := by
  unfold channelWork
  dsimp only
  split
  · exact k
  · exact Frame.foldl _ _ (fun _ _ hu => frame_requestFor H.fetches H.channels H.pages H.out _ hu)
      (frame_advance H.cues H.channels H.pages H.clips H.links _ k)

theorem frame_react (H : HouseParts m) (w : State × List Chan) (r : Reaction) (k : Frame m s w.1) :
    Frame m s (react w r).1 := by
  cases r <;> simp only [react]
  · exact frame_recorderWork H.recorders H.pages H.links k
  · exact frame_channelWork H _ w k
  · exact frame_arbiterWork H.claims H.channels H.pages H.links k
  · exact frame_watchLink H.states H.claims H.channels H.pages H.clips H.links _ k
  · exact frame_reportWork H.links H.draws _ k

theorem Frame.foldl_work {α : Type} (l : List α) (f : State × List Chan → α → State × List Chan)
    (hf : ∀ w a, Frame m s w.1 → Frame m s (f w a).1) (w : State × List Chan) (k : Frame m s w.1) :
    Frame m s (l.foldl f w).1 := by
  induction l generalizing w with
  | nil => exact k
  | cons a l ih => exact ih _ (hf w a k)

theorem frame_houseFrame (ht : Part.timeBase ∈ m) (H : HouseParts m) (order : List Reaction) (k : Frame m s t) :
    Frame m s (t.houseFrame order) :=
  Frame.foldl_work _ _ (fun w c hw => frame_channelWork H c w hw) _
    (Frame.foldl_work _ _ (fun w r hw => frame_react H w r hw) _ (frame_timeBase ht _ k))

theorem frame_giveEvent (ht : Part.timeBase ∈ m) (H : HouseParts m) (moment : Nat) (order : List Reaction) (k : Frame m s t) :
    Frame m s (t.giveEvent moment order) := frame_houseFrame ht H _ (frame_modTime ht _ k)

theorem frame_timerGives (ht : Part.timeBase ∈ m) (H : HouseParts m) (moment : Nat) (order : List Reaction) (k : Frame m s t) :
    Frame m s (t.timerGives moment order) := frame_giveEvent ht H _ _ (frame_modTime ht _ k)

theorem frame_relock (ht : Part.timeBase ∈ m) (H : HouseParts m) (moment : Nat) (order : List Reaction) (k : Frame m s t) :
    Frame m s (t.relock moment order) := by
  unfold State.relock
  dsimp only
  split
  · exact frame_giveEvent ht H _ _ (frame_modTime ht _ k)
  · exact frame_modTime ht _ k

theorem frame_pulse (ht : Part.timeBase ∈ m) (H : HouseParts m) (moment : Nat) (order : List Reaction) (k : Frame m s t) :
    Frame m s (t.pulse moment order) := by
  unfold State.pulse
  split
  · exact frame_giveEvent ht H _ _ (frame_modTime ht _ k)
  · split
    · split
      · exact frame_relock ht H _ _ k
      · exact frame_modTime ht _ k
    · exact frame_modTime ht _ k

theorem frame_loseReference (ht : Part.timeBase ∈ m) (H : HouseParts m) (order : List Reaction) (k : Frame m s t) :
    Frame m s (t.loseReference order) := by
  unfold State.loseReference
  split
  · exact frame_giveEvent ht H _ _ (frame_modTime ht _ k)
  · exact k

theorem frame_houseRateRule (h : Part.timeBase ∈ m) (x : BitVec 16) (k : Frame m s t) :
    Frame m s (houseRateRule x t).1 := by
  unfold houseRateRule
  split
  · exact k
  · exact frame_modTime h _ k

/-! ### Automation -/

theorem frame_curveSetRule (h : Part.curve ∈ m) (p : List Int) (k : Frame m s t) : Frame m s (curveSetRule p t).1 := by
  unfold curveSetRule
  split
  · exact frame_curve h _ k
  · exact k

theorem frame_stationSetRule (h : Part.settings ∈ m) (j ms : Byte) (p q : BitVec 16) (b : Byte) (k : Frame m s t) :
    Frame m s (stationSetRule j ms p q b t).1 := by
  unfold stationSetRule
  repeat' split
  all_goals first | exact k | exact frame_settings h _ k

theorem frame_readCounts (data : List Byte) (clear : Bool) {cleared : State} (kc : Frame m s cleared) (k : Frame m s t) :
    Frame m s (readCounts data clear cleared t).1 := Frame.ite kc k

theorem frame_statsTimeBaseRule (h : Part.timeBase ∈ m) (i : Byte) (c p : Bool) (k : Frame m s t) :
    Frame m s (statsTimeBaseRule i c p t).1 := by
  unfold statsTimeBaseRule
  split
  · exact k
  · exact frame_readCounts _ _ (frame_modTime h _ k) k

theorem frame_statsRecorderRule (hr : Part.recorders ∈ m) (hu : Part.unknownAngles ∈ m) (i : Byte) (c p : Bool)
    (k : Frame m s t) : Frame m s (statsRecorderRule i c p t).1 := by
  unfold statsRecorderRule
  repeat' split
  all_goals first
    | exact k
    | exact frame_readCounts _ _ (frame_unknownAngles hu _ k) k
    | exact frame_readCounts _ _ (frame_modRecCounts hr _ _ k) k

theorem frame_statsPageStoreRule (hp : Part.pages ∈ m) (i : Byte) (c p : Bool) (k : Frame m s t) :
    Frame m s (statsPageStoreRule i c p t).1 := by
  unfold statsPageStoreRule
  repeat' split
  all_goals first | exact k | exact frame_readCounts _ _ (frame_pages hp _ (by rfl) (fun _ => by rfl) k) k

theorem frame_statsChannelRule (hh : Part.channels ∈ m) (hu : Part.unmatchedPartWide ∈ m) (i : Byte) (c p : Bool)
    (k : Frame m s t) : Frame m s (statsChannelRule i c p t).1 := by
  unfold statsChannelRule
  repeat' split
  all_goals first
    | exact k
    | exact frame_readCounts _ _ (frame_unmatched hu _ k) k
    | exact frame_readCounts _ _ (frame_modChanCounts hh _ _ k) k

theorem frame_statsLinkRule (hl : Part.links ∈ m) (i : Byte) (c p : Bool) (k : Frame m s t) :
    Frame m s (statsLinkRule i c p t).1 := by
  unfold statsLinkRule
  repeat' split
  all_goals first | exact k | exact frame_readCounts _ _ (frame_modLinkCounts hl _ _ k) k

/-- The parts a controller restart may change lie in `m`. -/
structure RestartParts (m : List Part) : Prop where
  pages : Part.pages ∈ m
  clips : Part.clips ∈ m
  cues : Part.cues ∈ m
  fetches : Part.fetches ∈ m
  channels : Part.channels ∈ m
  out : Part.fetchOut ∈ m
  routes : Part.routes ∈ m
  claims : Part.claims ∈ m
  states : Part.linkStates ∈ m
  links : Part.links ∈ m

theorem frame_channels (hh : Part.channels ∈ m) (hq : Part.cues ∈ m) (hf : Part.fetches ∈ m) (x : Vector Channel 4)
    (k : Frame m s t) : Frame m s { t with channels := x } := by
  refine k.trans fun p hp => ?_
  cases p <;> first | exact absurd hh hp | exact absurd hq hp | exact absurd hf hp | exact rfl | exact fun _ => rfl |
    exact fun _ => ⟨rfl, rfl⟩ | exact ⟨rfl, rfl⟩ | exact ⟨rfl, fun _ => rfl⟩ | exact ⟨rfl, rfl, rfl⟩ |
    exact ⟨rfl, rfl, rfl, rfl, rfl⟩

theorem frame_clearPins (hp : Part.pages ∈ m) (k : Frame m s t) : Frame m s t.clearPins := by
  unfold State.clearPins
  refine frame_pages hp _ (by rfl) (fun a => ?_) k
  simp [State.pageList, Function.comp_def]

theorem frame_withdrawFetches (h : Part.fetchOut ∈ m) (k : Frame m s t) : Frame m s t.withdrawFetches :=
  frame_fetchOut h _ k

theorem frame_restartChannels (hh : Part.channels ∈ m) (hq : Part.cues ∈ m) (hf : Part.fetches ∈ m) (k : Frame m s t) :
    Frame m s t.restartChannels := frame_channels hh hq hf _ k

theorem frame_restartArbiter (hr : Part.routes ∈ m) (ha : Part.claims ∈ m) (k : Frame m s t) :
    Frame m s t.restartArbiter := frame_arbiter hr ha _ k

theorem frame_restart (H : RestartParts m) (k : Frame m s t) : Frame m s t.restart :=
  Frame.foldl _ _ (fun _ _ hu => frame_modLink_any _ _ (.inl H.links) (.inl H.states) hu)
    (frame_restartArbiter H.routes H.claims (frame_restartChannels H.channels H.cues H.fetches
      (frame_withdrawFetches H.out (frame_clearPins H.pages
        (Frame.foldl _ _ (fun _ _ hu => frame_leaveClip H.channels H.pages H.clips _ hu) k)))))

end Sys2Proof.Machine
end

