-- ==== Sys2Proof/Laws/StartFrames.lean ====
section
/-! SUPPORT. Laws/StartFrames.lean: the parts of the state that the start of each command and an accepted desk frame may
change. -/

namespace Sys2Proof.Machine

variable {m : List Part} {s t : State}

/-- The parts an accepted desk frame may change lie in `m`. -/
structure DeskParts (m : List Part) : Prop where
  house : HouseParts m
  time : Part.timeBase ∈ m
  unknown : Part.unknownAngles ∈ m
  numbers : Part.pageNumbers ∈ m
  unmatched : Part.unmatchedPartWide ∈ m
  routes : Part.routes ∈ m
  curve : Part.curve ∈ m
  settings : Part.settings ∈ m

/-! ### The clip table -/

section Clip

variable (hp : Part.pages ∈ m) (hc : Part.clips ∈ m) (hl : Part.links ∈ m) (hd : Part.draws ∈ m) (stn : Station)
  (id serial : BitVec 16) (k : Frame m s t)

include hp hc hl hd k

theorem frame_startMarkIn : Frame m s (startMarkIn stn t) :=
  frame_startCommand hl hd _ _ _ _ (fun _ hu => frame_takeMarkIn hp hc _ hu) k

theorem frame_startMarkOut : Frame m s (startMarkOut stn t) :=
  frame_startCommand hl hd _ _ _ _ (fun _ hu => frame_takeMarkOut hp hc _ hu) k

theorem frame_startProtect : Frame m s (startProtect stn id serial t) :=
  frame_startCommand hl hd _ _ _ _
    (fun _ hu => frame_onClip _ _ _ _ (fun _ _ hv => frame_protectRule hp hc _ _ hv) hu) k

theorem frame_startUnprotect : Frame m s (startUnprotect stn id serial t) :=
  frame_startCommand hl hd _ _ _ _
    (fun _ hu => frame_onClip _ _ _ _ (fun _ _ hv => frame_protectRule hp hc _ _ hv) hu) k

theorem frame_startDelete : Frame m s (startDelete stn id serial t) :=
  frame_startCommand hl hd _ _ _ _
    (fun _ hu => frame_onClip _ _ _ _ (fun _ _ hv => frame_deleteRule hp hc _ hv) hu) k

omit hp in
theorem frame_startLabel (text : List (BitVec 7)) : Frame m s (startLabel stn id serial text t) :=
  frame_startCommand hl hd _ _ _ _
    (fun _ hu => frame_onClip _ _ _ _ (fun _ _ hv => frame_labelRule hc _ _ hv) hu) k

omit hp in
theorem frame_startTagAdd (tag : Byte) : Frame m s (startTagAdd stn id serial tag t) :=
  frame_startCommand hl hd _ _ _ _
    (fun _ hu => frame_onClip _ _ _ _ (fun _ _ hv => frame_tagAddRule hc _ _ hv) hu) k

omit hp in
theorem frame_startTagRemove (tag : Byte) : Frame m s (startTagRemove stn id serial tag t) :=
  frame_startCommand hl hd _ _ _ _
    (fun _ hu => frame_onClip _ _ _ _ (fun _ _ hv => frame_tagRemoveRule hc _ _ hv) hu) k

omit hp in
theorem frame_startHero (angle : Byte) : Frame m s (startHero stn id serial angle t) :=
  frame_startCommand hl hd _ _ _ _
    (fun _ hu => frame_onClip _ _ _ _ (fun _ _ hv => frame_heroRule hc _ _ hv) hu) k

end Clip

/-! ### Channels -/

section Channels

variable (hh : Part.channels ∈ m) (hp : Part.pages ∈ m) (hl : Part.links ∈ m) (hd : Part.draws ∈ m) (stn : Station)
  (channel : Byte) (k : Frame m s t)

include hh hp hl hd k

theorem frame_startPlay (pace : Pace) : Frame m s (startPlay stn channel pace t) :=
  frame_startCommand hl hd _ _ _ _ (fun _ hu => frame_onChannel _ _ _ (fun _ _ hv => frame_onLeader _
    (fun _ _ hw => frame_play hh hp hl _ _ _ (frame_disarm hl _ _ hw)) _ hv) hu) k

theorem frame_startPause : Frame m s (startPause stn channel t) :=
  frame_startCommand hl hd _ _ _ _ (fun _ hu => frame_onChannel _ _ _ (fun _ _ hv => frame_onLeader _
    (fun _ _ hw => frame_pause hh hp _ hw) _ hv) hu) k

theorem frame_startLive (hc : Part.clips ∈ m) : Frame m s (startLive stn channel t) :=
  frame_startCommand hl hd _ _ _ _ (fun _ hu => frame_onChannel _ _ _ (fun _ _ hv => frame_onLeader _
    (fun _ _ hw => frame_goLive hh hp hc _ hw) _ hv) hu) k

theorem frame_startLoad (hc : Part.clips ∈ m) (angle : Byte) (hf : BitVec 32) :
    Frame m s (startLoad stn channel angle hf t) :=
  frame_startCommand hl hd _ _ _ _
    (fun _ hu => frame_onChannel _ _ _ (fun _ _ hv => frame_loadRule hh hp hc _ _ _ hv) hu) k

theorem frame_startAngle (angle : Byte) : Frame m s (startAngle stn channel angle t) :=
  frame_startCommand hl hd _ _ _ _
    (fun _ hu => frame_onChannel _ _ _ (fun _ _ hv => frame_angleRule hh hp _ _ hv) hu) k

theorem frame_startUnload (hc : Part.clips ∈ m) : Frame m s (startUnload stn channel t) :=
  frame_startCommand hl hd _ _ _ _ (fun _ hu => frame_onChannel _ _ _
    (fun _ _ hv => frame_settleLevers hh hp _ (frame_enterIdle hh hp hc _ hv)) hu) k

omit hp in
theorem frame_startBlack : Frame m s (startBlack stn channel t) :=
  frame_startCommand hl hd _ _ _ _ (fun _ hu => frame_onChannel _ _ _
    (fun _ _ hv => frame_modChan hh _ _ (fun _ => by rfl) (fun _ => ⟨by rfl, by rfl⟩) hv) hu) k

omit hp in
theorem frame_startUnblack : Frame m s (startUnblack stn channel t) :=
  frame_startCommand hl hd _ _ _ _ (fun _ hu => frame_onChannel _ _ _
    (fun _ _ hv => frame_modChan hh _ _ (fun _ => by rfl) (fun _ => ⟨by rfl, by rfl⟩) hv) hu) k

theorem frame_startGang (hc : Part.clips ∈ m) (fs : List Byte) : Frame m s (startGang stn channel fs t) :=
  frame_startCommand hl hd _ _ _ _ (fun _ hu => frame_gangRule hh hp hc _ _ _ hu) k

theorem frame_startUngang : Frame m s (startUngang stn channel t) :=
  frame_startCommand hl hd _ _ _ _ (fun _ hu => frame_onChannel _ _ _
    (fun _ _ hv => frame_settleLevers hh hp _ (frame_breakGang hh _ hv)) hu) k

theorem frame_startLoadClip (hc : Part.clips ∈ m) (id serial : BitVec 16) (angle : Byte) (pace : Pace) :
    Frame m s (startLoadClip stn channel id serial angle pace t) := by
  refine frame_startCommand hl hd _ _ _ _ (fun u hu => ?_) k
  split
  · exact hu
  · exact frame_onChannel _ _ _ (fun _ _ hv => frame_loadClipRule hh hp hc hl _ _ _ _ _ _ hv) hu

omit hh hp in
theorem frame_startCueAdd (hq : Part.cues ∈ m) (id serial : BitVec 16) (angle : Byte) (pace : Pace) :
    Frame m s (startCueAdd stn channel id serial angle pace t) := by
  refine frame_startCommand hl hd _ _ _ _ (fun u hu => ?_) k
  split
  · exact hu
  · refine frame_onChannel _ _ _ (fun c v hv => ?_) hu
    unfold cueAddRule
    split
    · exact hv
    · exact frame_modCues hq _ _ (fun _ => by rfl) (fun _ => ⟨by rfl, by rfl⟩) hv

omit hp in
theorem frame_startCueClear (hq : Part.cues ∈ m) : Frame m s (startCueClear stn channel t) :=
  frame_startCommand hl hd _ _ _ _ (fun _ hu => frame_onChannel _ _ _
    (fun _ _ hv => frame_modChan_any _ _ (.inl hh) (.inl hq) (.inr fun _ => ⟨by rfl, by rfl⟩) hv) hu) k

theorem frame_startCueNext (hq : Part.cues ∈ m) (hc : Part.clips ∈ m) : Frame m s (startCueNext stn channel t) := by
  refine frame_startCommand hl hd _ _ _ _ (fun _ hu => frame_onChannel _ _ _ (fun c v hv => ?_) hu) k
  split
  · exact hv
  · exact frame_cueNext hq hh hp hc hl _ hv

end Channels

/-! ### Claims, routing, links and listings -/

section Control

variable (hl : Part.links ∈ m) (hd : Part.draws ∈ m) (stn : Station) (channel : Byte) (k : Frame m s t)

include hl hd k

theorem frame_startSelect (hh : Part.channels ∈ m) (hp : Part.pages ∈ m) : Frame m s (startSelect stn channel t) := by
  refine frame_startCommand hl hd _ _ _ _ (fun u hu => ?_) k
  split
  · exact frame_selectRule hh hp hl _ _ hu
  · exact frame_onChannel _ _ _ (fun _ _ hv => frame_selectRule hh hp hl _ _ hv) hu

theorem frame_startClaim (ha : Part.claims ∈ m) : Frame m s (startClaim stn channel t) :=
  frame_startCommand hl hd _ _ _ _ (fun _ hu => frame_claimRule ha _ _ hu) k

theorem frame_startCancel (ha : Part.claims ∈ m) : Frame m s (startCancel stn t) :=
  frame_startCommand hl hd _ _ _ _ (fun _ hu => frame_cancelRule ha hl _ hu) k

theorem frame_startRelease (ha : Part.claims ∈ m) (hh : Part.channels ∈ m) (hp : Part.pages ∈ m) :
    Frame m s (startRelease stn channel t) :=
  frame_startCommand hl hd _ _ _ _
    (fun _ hu => frame_onChannel _ _ _ (fun _ _ hv => frame_releaseRule ha hh hp hl _ _ hv) hu) k

theorem frame_startForceRelease (ha : Part.claims ∈ m) (hh : Part.channels ∈ m) (hp : Part.pages ∈ m) :
    Frame m s (startForceRelease stn channel t) :=
  frame_startCommand hl hd _ _ _ _ (fun _ hu => frame_forceReleaseRule ha hh hp hl _ hu) k

theorem frame_startCut (hr : Part.routes ∈ m) : Frame m s (startCut stn channel t) :=
  frame_startCommand hl hd _ _ _ _ (fun _ hu => frame_onRoute _ _ _ (fun _ _ hv => frame_cutRule hr _ hv) hu) k

theorem frame_startPreview (hr : Part.routes ∈ m) : Frame m s (startPreview stn channel t) :=
  frame_startCommand hl hd _ _ _ _ (fun _ hu => frame_onRoute _ _ _ (fun _ _ hv => frame_previewRule hr _ hv) hu) k

theorem frame_startTake (hr : Part.routes ∈ m) : Frame m s (startTake stn t) := by
  refine frame_startCommand hl hd _ _ _ _ (fun u hu => ?_) k
  split
  · exact frame_swapRoutes hr hu
  · exact hu

theorem frame_startList (f : Filter) : Frame m s (startList stn f t) :=
  frame_startCommand hl hd _ _ _ _ (fun _ hu => frame_listRule hl _ _ hu) k

theorem frame_startLinkSet (hs : Part.linkStates ∈ m) (ha : Part.claims ∈ m) (hh : Part.channels ∈ m)
    (hp : Part.pages ∈ m) (j e d : Byte) : Frame m s (startLinkSet stn j e d t) :=
  frame_startCommand hl hd _ _ _ _ (fun _ hu => frame_linkSetRule hs ha hh hp hl _ _ _ hu) k

theorem frame_startAngleSet (hr : Part.recorders ∈ m) (hp : Part.pages ∈ m) (hn : Part.pageNumbers ∈ m) (a x : Byte)
    (q : BitVec 16) : Frame m s (startAngleSet stn a x q t) := by
  refine frame_startCommand hl hd _ _ _ _ (fun _ hu => frame_onAngle _ _ (fun b v hv => ?_) hu) k
  split
  · exact hv
  · exact frame_angleSetRule hr hp hn _ _ _ hv

theorem frame_startRecStart (hr : Part.recorders ∈ m) (a : Byte) : Frame m s (startRecStart stn a t) :=
  frame_startCommand hl hd _ _ _ _ (fun _ hu => frame_onAngle _ _ (fun _ _ hv => frame_recStartRule hr _ hv) hu) k

theorem frame_startRecStop (hr : Part.recorders ∈ m) (hp : Part.pages ∈ m) (a : Byte) :
    Frame m s (startRecStop stn a t) :=
  frame_startCommand hl hd _ _ _ _ (fun _ hu => frame_onAngle _ _ (fun _ _ hv => frame_recStopRule hr hp _ hv) hu) k

theorem frame_startCurveSet (h : Part.curve ∈ m) (p : List (BitVec 16)) : Frame m s (startCurveSet stn p t) :=
  frame_startCommand hl hd _ _ _ _ (fun _ hu => frame_curveSetRule h _ hu) k

theorem frame_startStationSet (h : Part.settings ∈ m) (x ms : Byte) (p q : BitVec 16) (b : Byte) :
    Frame m s (startStationSet stn x ms p q b t) :=
  frame_startCommand hl hd _ _ _ _ (fun _ hu => frame_stationSetRule h _ _ _ _ _ hu) k

theorem frame_startStats (rule : State → State × Reply) (hr : ∀ u, Frame m s u → Frame m s (rule u).1) :
    Frame m s (startStats stn rule t) := frame_startCommand hl hd _ _ _ _ hr k

theorem frame_startRestart (H : RestartParts m) : Frame m s (startRestart stn t) :=
  frame_startCommand hl hd _ _ _ _ (fun _ hu => frame_restart H hu) k

omit hl hd in
theorem frame_startHouseRate (ht : Part.timeBase ∈ m) (H : HouseParts m) (x : BitVec 16) (moment : Nat) (order : List Reaction) :
    Frame m s (startHouseRate stn x moment order t) := by
  unfold startHouseRate
  dsimp only
  have k' := frame_startCommand H.links H.draws stn .houseRate true (houseRateRule x)
    (fun _ hu => frame_houseRateRule ht _ hu) k
  split
  · exact frame_timerGives ht H _ _ k'
  · exact k'

end Control

/-! ### Desk frames -/

theorem frame_markKey (hl : Part.links ∈ m) (j : Station) (r : State × Reply) (k : Frame m s r.1) :
    Frame m s (markKey j r) := Frame.ite (frame_keyIgnored hl _ k) k

theorem frame_targetKey (hl : Part.links ∈ m) (j : Station) (f : Chan → State → State)
    (hf : ∀ c u, Frame m s u → Frame m s (f c u)) (k : Frame m s t) : Frame m s (t.targetKey j f) := by
  unfold State.targetKey
  repeat' split
  all_goals first | exact frame_keyIgnored hl _ k | exact hf _ _ k

theorem frame_cueNextKey (H : HouseParts m) (j : Station) (k : Frame m s t) : Frame m s (t.cueNextKey j) := by
  unfold State.cueNextKey
  split
  · exact frame_keyIgnored H.links _ k
  · have k' := fun c => frame_cueNext H.cues H.channels H.pages H.clips H.links c k
    exact Frame.ite (frame_keyIgnored H.links _ (k' _)) (k' _)

theorem frame_angleNextKey (H : HouseParts m) (j : Station) (k : Frame m s t) : Frame m s (t.angleNextKey j) := by
  unfold State.angleNextKey
  split
  · exact frame_keyIgnored H.links _ k
  · split
    · exact frame_keyIgnored H.links _ k
    · split
      · exact frame_changeAngle H.channels H.pages _ _ _ k
      · exact frame_keyIgnored H.links _ k

theorem frame_takeKey (D : DeskParts m) (j : Station) (k : Frame m s t) : Frame m s (t.takeKey j) :=
  Frame.ite (frame_swapRoutes D.routes k) (frame_keyIgnored D.house.links _ k)

theorem frame_keyAction (D : DeskParts m) (j : Station) (i : Fin 8) (k : Frame m s t) : Frame m s (t.keyAction j i) := by
  have H := D.house
  unfold State.keyAction
  split
  · exact frame_markKey H.links _ _ (frame_takeMarkIn H.pages H.clips _ k)
  · exact frame_markKey H.links _ _ (frame_takeMarkOut H.pages H.clips _ k)
  · exact frame_targetKey H.links _ _
      (fun _ _ hu => frame_play H.channels H.pages H.links _ _ _ (frame_disarm H.links _ _ hu)) k
  · exact frame_targetKey H.links _ _ (fun _ _ hu => frame_pause H.channels H.pages _ hu) k
  · exact frame_targetKey H.links _ _ (fun _ _ hu => frame_goLive H.channels H.pages H.clips _ hu) k
  · exact frame_takeKey D _ k
  · exact frame_cueNextKey H _ k
  · exact frame_angleNextKey H _ k

theorem DeskParts.restart (D : DeskParts m) : RestartParts m :=
  ⟨D.house.pages, D.house.clips, D.house.cues, D.house.fetches, D.house.channels, D.house.out, D.routes, D.house.claims,
    D.house.states, D.house.links⟩

theorem frame_startRow (D : DeskParts m) (i : Instr) (k : Frame m s t) : Frame m s (startRow i t) := by
  have H := D.house
  cases i
  case markIn => exact frame_startMarkIn H.pages H.clips H.links H.draws _ k
  case markOut => exact frame_startMarkOut H.pages H.clips H.links H.draws _ k
  case protect => exact frame_startProtect H.pages H.clips H.links H.draws _ _ _ k
  case unprotect => exact frame_startUnprotect H.pages H.clips H.links H.draws _ _ _ k
  case delete => exact frame_startDelete H.pages H.clips H.links H.draws _ _ _ k
  case label => exact frame_startLabel H.clips H.links H.draws _ _ _ k _
  case tagAdd => exact frame_startTagAdd H.clips H.links H.draws _ _ _ k _
  case tagRemove => exact frame_startTagRemove H.clips H.links H.draws _ _ _ k _
  case hero => exact frame_startHero H.clips H.links H.draws _ _ _ k _
  case play => exact frame_startPlay H.channels H.pages H.links H.draws _ _ k _
  case pause => exact frame_startPause H.channels H.pages H.links H.draws _ _ k
  case live => exact frame_startLive H.channels H.pages H.links H.draws _ _ k H.clips
  case load => exact frame_startLoad H.channels H.pages H.links H.draws _ _ k H.clips _ _
  case angle => exact frame_startAngle H.channels H.pages H.links H.draws _ _ k _
  case unload => exact frame_startUnload H.channels H.pages H.links H.draws _ _ k H.clips
  case black => exact frame_startBlack H.channels H.links H.draws _ _ k
  case unblack => exact frame_startUnblack H.channels H.links H.draws _ _ k
  case gang => exact frame_startGang H.channels H.pages H.links H.draws _ _ k H.clips _
  case ungang => exact frame_startUngang H.channels H.pages H.links H.draws _ _ k
  case loadClip => exact frame_startLoadClip H.channels H.pages H.links H.draws _ _ k H.clips _ _ _ _
  case cueAdd => exact frame_startCueAdd H.links H.draws _ _ k H.cues _ _ _ _
  case cueClear => exact frame_startCueClear H.channels H.links H.draws _ _ k H.cues
  case cueNext => exact frame_startCueNext H.channels H.pages H.links H.draws _ _ k H.cues H.clips
  case claim => exact frame_startClaim H.links H.draws _ _ k H.claims
  case cancel => exact frame_startCancel H.links H.draws _ k H.claims
  case release => exact frame_startRelease H.links H.draws _ _ k H.claims H.channels H.pages
  case select => exact frame_startSelect H.links H.draws _ _ k H.channels H.pages
  case cut => exact frame_startCut H.links H.draws _ _ k D.routes
  case preview => exact frame_startPreview H.links H.draws _ _ k D.routes
  case take => exact frame_startTake H.links H.draws _ k D.routes
  case forceRelease => exact frame_startForceRelease H.links H.draws _ _ k H.claims H.channels H.pages
  case list => exact frame_startList H.links H.draws _ k _
  case angleSet => exact frame_startAngleSet H.links H.draws _ k H.recorders H.pages D.numbers _ _ _
  case recStart => exact frame_startRecStart H.links H.draws _ k H.recorders _
  case recStop => exact frame_startRecStop H.links H.draws _ k H.recorders H.pages _
  case houseRate => exact frame_startHouseRate _ k D.time H _ _ _
  case curveSet => exact frame_startCurveSet H.links H.draws _ k D.curve _
  case linkSet => exact frame_startLinkSet H.links H.draws _ k H.states H.claims H.channels H.pages _ _ _
  case stationSet => exact frame_startStationSet H.links H.draws _ k D.settings _ _ _ _ _
  case statsTimeBase => exact frame_startStats H.links H.draws _ k _ (fun _ hu => frame_statsTimeBaseRule D.time _ _ _ hu)
  case statsRecorder => exact frame_startStats H.links H.draws _ k _ (fun _ hu => frame_statsRecorderRule H.recorders D.unknown _ _ _ hu)
  case statsPageStore => exact frame_startStats H.links H.draws _ k _ (fun _ hu => frame_statsPageStoreRule H.pages _ _ _ hu)
  case statsChannel => exact frame_startStats H.links H.draws _ k _ (fun _ hu => frame_statsChannelRule H.channels D.unmatched _ _ _ hu)
  case statsLink => exact frame_startStats H.links H.draws _ k _ (fun _ hu => frame_statsLinkRule H.links _ _ _ hu)
  case restart => exact frame_startRestart H.links H.draws _ k D.restart
  all_goals exact k

theorem frame_startMessage (D : DeskParts m) (j : Station) (moment : Nat) (order : List Reaction) (message : List Byte)
    (k : Frame m s t) : Frame m s (startMessage j moment order message t) := by
  have H := D.house
  unfold startMessage
  split
  · exact k
  · split
    · exact frame_startUnknown H.links _ _ k
    · split
      · exact frame_startRow D _ k
      · exact frame_startCommand H.links H.draws _ _ _ _ (fun _ hu => hu) k
      · exact frame_startCommand H.links H.draws _ _ _ _ (fun _ hu => hu) k

theorem frame_handshake (D : DeskParts m) (j : Station) (moment : Nat) (order : List Reaction) (f : DeskFrame)
    (k : Frame m s t) : Frame m s (t.handshake j moment order f) := by
  have H := D.house
  unfold State.handshake
  dsimp only
  split
  · exact frame_modLink H.links _ _ (fun _ => ⟨by rfl, by rfl⟩) k
  · split
    · exact k
    · split
      · exact k
      · exact frame_startMessage D _ _ _ _ (frame_modLink H.links _ _ (fun _ => ⟨by rfl, by rfl⟩) k)

theorem frame_acceptFrame (D : DeskParts m) (j : Station) (moment : Nat) (order : List Reaction) (f : DeskFrame)
    (k : Frame m s t) : Frame m s (t.acceptFrame j moment order f) := by
  have H := D.house
  unfold State.acceptFrame
  exact frame_handshake D _ _ _ _ (Frame.foldl _ _ (fun _ _ hu => frame_keyAction D _ _ hu)
    (frame_jogWork H.channels H.pages H.links _ _ (frame_leverWork H.channels H.pages H.clips H.links _ _
      (frame_modLink_any _ _ (.inl H.links) (.inl H.states) k))))

theorem frame_rejectFrame (h : Part.links ∈ m) (j : Station) (fault : FrameFault) (k : Frame m s t) :
    Frame m s (t.rejectFrame j fault) :=
  frame_modLink h _ _ (fun _ => ⟨by rfl, by rfl⟩) (frame_modLinkCounts h _ _ k)

theorem frame_receive (D : DeskParts m) (j : Station) (gap : Bool) (moment : Nat) (order : List Reaction) (fuel : Nat)
    (bytes : List RxByte) (k : Frame m s t) : Frame m s (State.receive j gap moment order fuel bytes t) := by
  have H := D.house
  induction fuel generalizing t bytes with
  | zero => exact k
  | succ n ih =>
    unfold State.receive
    split
    · exact k
    · split
      · exact frame_modLink H.links _ _ (fun _ => ⟨by rfl, by rfl⟩) k
      · split
        · split
          · exact ih _ (frame_rejectFrame H.links _ _ k)
          · exact frame_modLink H.links _ _ (fun _ => ⟨by rfl, by rfl⟩) k
        · exact ih _ (frame_rejectFrame H.links _ _ k)
        · exact ih _ (frame_inEvent H.clips _ (fun _ hu => frame_acceptFrame D _ _ _ _ hu)
            (frame_modLink H.links _ _ (fun _ => ⟨by rfl, by rfl⟩) k))

end Sys2Proof.Machine
end

