-- ==== Sys2Proof/Laws/Answers.lean ====
section
/-! SUPPORT. Laws/Answers.lean: the start of a command that is heard, in one equation (R146, R169, R170), and what the
counting of a command leaves alone. -/

namespace Sys2Proof.Machine

variable {s : State} {stn : Station} {kind : CommandKind}

/-! ### The state in which a command is taken -/

@[simp] theorem span_counted (a : Angle) : (s.counted stn).span a = s.span a := rfl
@[simp] theorem frameSpan_counted (a : Angle) : (s.counted stn).frameSpan a = s.frameSpan a := rfl
@[simp] theorem leaderOf_counted (c : Chan) : (s.counted stn).leaderOf c = s.leaderOf c := rfl
@[simp] theorem followersOf_counted (c : Chan) : (s.counted stn).followersOf c = s.followersOf c := rfl
@[simp] theorem isFollower_counted (c : Chan) : (s.counted stn).isFollower c = s.isFollower c := rfl
@[simp] theorem openClip_counted (j : Station) : (s.counted stn).openClip j = s.openClip j := rfl
@[simp] theorem fillingPage_counted (a : Angle) : (s.counted stn).fillingPage a = s.fillingPage a := rfl
@[simp] theorem trimMark_counted (l : List Angle) (h : Nat) : (s.counted stn).trimMark l h = s.trimMark l h := rfl
@[simp] theorem findClip_counted (id serial : Nat) : (s.counted stn).findClip id serial = s.findClip id serial := rfl
@[simp] theorem freeId_counted : (s.counted stn).freeId = s.freeId := rfl
@[simp] theorem freeSerial_counted : (s.counted stn).freeSerial = s.freeSerial := rfl

/-- Counting a command keeps everything of every link but the count of commands taken. -/
theorem link_counted (k : Station) :
    (s.counted stn).link k =
      if k = stn then
        { s.link k with counts := { (s.link k).counts with commandsTaken := satInc (s.link k).counts.commandsTaken } }
      else s.link k := vmod_get ..

@[simp] theorem link_counted_state (k : Station) : ((s.counted stn).link k).state = (s.link k).state := by
  rw [link_counted]; split <;> rfl

@[simp] theorem link_counted_enabled (k : Station) : ((s.counted stn).link k).enabled = (s.link k).enabled := by
  rw [link_counted]; split <;> rfl

@[simp] theorem link_counted_selected (k : Station) : ((s.counted stn).link k).selected = (s.link k).selected := by
  rw [link_counted]; split <;> rfl

@[simp] theorem link_counted_engaged (k : Station) : ((s.counted stn).link k).engaged = (s.link k).engaged := by
  rw [link_counted]; split <;> rfl

@[simp] theorem link_counted_listing (k : Station) : ((s.counted stn).link k).listing = (s.link k).listing := by
  rw [link_counted]; split <;> rfl

@[simp] theorem leverTarget_counted (k : Station) : (s.counted stn).leverTarget k = s.leverTarget k := by
  simp only [State.leverTarget, link_counted_selected]; rfl

@[simp] theorem mark_counted (k : Station) : (s.counted stn).mark k = s.mark k := by
  simp only [State.mark, link_counted_selected]; rfl

@[simp] theorem claimRefusal_counted (j : Station) (c : Chan) :
    (s.counted stn).claimRefusal j c = s.claimRefusal j c := rfl

/-- Hearing a station does not hang on the mark that an event leaves on the clip table. -/
theorem hears_event (h : s.hears stn) (b : Bool) :
    ({ s with clips := { s.clips with raised := b } } : State).hears stn := h

/-! ### Answers -/

@[simp] theorem ackOf_some (r : Result) (data : List Byte) :
    ackOf kind.code { result := some r, data := data } = doneAck kind r data := rfl

@[simp] theorem ackOf_plain (r : Result) : ackOf kind.code (.plain r) = doneAck kind r [] := rfl

@[simp] theorem ackOf_okWith (data : List Byte) : ackOf kind.code (.okWith data) = doneAck kind .ok data := rfl

/-- While RESET is released, a command acts. -/
theorem act_released (f : State → State) (h : s.resetHeld = false) : act f s = .next (f s) := by
  simp [act, h]

/-- A command that is heard and passes the checks of its start is taken by its owning block (R169). -/
theorem startCommand_hears {fits : Bool} (body : State → State × Reply) (h : s.hears stn)
    (allowed : kind.isReserved = false ∨ stn = 0) (hf : fits = true) :
    startCommand stn kind fits body s =
      (body (s.counted stn)).1.writeAck stn (ackOf kind.code (body (s.counted stn)).2) := by
  obtain ⟨-, hs, hc⟩ := h
  subst hf
  rcases allowed with ha | rfl
  · simp [startCommand, State.slotBusy, hs, hc, ha, State.counted]
  · simp [startCommand, State.slotBusy, hs, hc, State.counted]

/-- A command on a channel that the station drives comes to its own rule (R88, R146). -/
theorem onChannel_drives {channel : Byte} {c : Chan} {rule : Chan → State → State × Reply}
    (hc : chanOf? channel.toNat = some c) (h : s.drives stn c) : onChannel stn channel rule s = rule c s := by
  have hr : s.claimRefusal stn c = none := by
    rcases h with h | ⟨rfl, h⟩ <;> simp [State.claimRefusal, h]
  simp [onChannel, hc, hr]

/-- A command on a clip that the station may change comes to its own rule (R79). -/
theorem onClip_owns {id serial : BitVec 16} {c : Clip} {rule : Clip → State → State × Reply}
    (h : s.ownsClip stn id serial c) : onClip stn id serial rule s = rule c s := by
  obtain ⟨hf, h⟩ := h
  have : (stn = c.owner || stn = 0) = true := by rcases h with h | h <;> simp [h]
  simp only [onClip, hf, this, if_true]

/-! ### Commands as steps of the machine -/

/-- The state in which an event begins: it has not raised the generation (R62). -/
abbrev State.atEvent (s : State) : State := { s with clips := { s.clips with raised := false } }

/-- Two events that do the same to the state they begin in do the same. -/
theorem inEvent_congr {f g : State → State} (h : f s.atEvent = g s.atEvent) : s.inEvent f = s.inEvent g := by
  simp only [State.inEvent, h]

/-- A command that is one event, heard and allowed: the owning block's rule, and its answer (R169, R170). -/
theorem event_startCommand {fits : Bool} {body : State → State × Reply} {g : State → State} (h : s.hears stn)
    (allowed : kind.isReserved = false ∨ stn = 0) (hf : fits = true)
    (hg : ∀ u, u = s.atEvent →
      (body (u.counted stn)).1.writeAck stn (ackOf kind.code (body (u.counted stn)).2) = g u) :
    act (fun s => s.inEvent (startCommand stn kind fits body)) s = .next (s.inEvent g) := by
  rw [act_released _ h.1, inEvent_congr (g := g)]
  rw [startCommand_hears _ (hears_event h false) allowed hf]
  exact hg _ rfl

/-- A command that is heard and allowed: the owning block's rule, and its answer (R169, R170). -/
theorem step_startCommand {fits : Bool} {body : State → State × Reply} (h : s.hears stn)
    (allowed : kind.isReserved = false ∨ stn = 0) (hf : fits = true) :
    act (startCommand stn kind fits body) s =
      .next ((body (s.counted stn)).1.writeAck stn (ackOf kind.code (body (s.counted stn)).2)) := by
  rw [act_released _ h.1, startCommand_hears _ h allowed hf]

end Sys2Proof.Machine
end

