-- ==== Sys2Proof/Laws/Generation.lean ====
section
/-! SUPPORT. Laws/Generation.lean: what an operation within an event does to the table generation and to the clip fields
that R62 speaks of, said once for the operations of the clip table, the page store and the channels. Every lemma goes on
from a state `t` that the event has reached from `s`. -/

namespace Sys2Proof.Machine

variable {m : List Part} {s t u : State}

/-- The clip records without the two counts whose changes R62 leaves out. -/
def State.tableFields (s : State) : List Clip := s.clips.clips.map fun c => { c with useCount := 0, scansPending := 0 }

/-- From `s` to `t` within one event: the generation rises by 1 at the first change of the fields, and stands once the
event has raised it (R62). -/
def Tells (s t : State) : Prop :=
  if s.clips.raised then t.clips.raised = true ∧ t.clips.generation = s.clips.generation
  else if t.clips.raised then t.clips.generation = (s.clips.generation + 1) % 65536
  else t.clips.generation = s.clips.generation ∧ t.tableFields = s.tableFields

theorem Tells.refl (s : State) : Tells s s := by unfold Tells; cases s.clips.raised <;> simp

theorem Tells.trans (h : Tells s t) (k : Tells t u) : Tells s u := by
  unfold Tells at *
  cases hs : s.clips.raised <;> cases ht : t.clips.raised <;> cases hu : u.clips.raised <;> simp_all

/-- An operation that leaves the clip table alone tells nothing new. -/
theorem Tells.frame (h : Frame m t u) (hm : Part.clips ∉ m) (k : Tells s t) : Tells s u := by
  have e : u.clips = t.clips := h .clips hm
  unfold Tells State.tableFields at *
  rwa [e]

theorem Tells.foldl {α : Type} (l : List α) (f : State → α → State) (hf : ∀ u a, Tells s u → Tells s (f u a))
    (k : Tells s t) : Tells s (l.foldl f t) := by
  induction l generalizing t with
  | nil => exact k
  | cons a l ih => exact ih (hf t a k)

/-- What the event has told at its end (R62). -/
theorem Tells.of_event (h : Tells { s with clips := { s.clips with raised := false } } t) :
    (t.clips.generation = s.clips.generation ∨ t.clips.generation = (s.clips.generation + 1) % 65536) ∧
      (t.tableFields ≠ s.tableFields → t.clips.generation = (s.clips.generation + 1) % 65536) := by
  have e : ({ s with clips := { s.clips with raised := false } } : State).tableFields = s.tableFields := rfl
  unfold Tells at h
  rw [e] at h
  cases ht : t.clips.raised <;> simp_all

/-! ### Changes of the clip table -/

/-- Any change of the clip table that keeps the generation, followed by its rise. -/
theorem tells_raised (k : Tells s t) (hg : u.clips.generation = t.clips.generation)
    (hr : u.clips.raised = t.clips.raised) : Tells s u.raiseGeneration := by
  refine k.trans ?_
  unfold Tells State.raiseGeneration
  cases ht : t.clips.raised <;> rw [ht] at hr <;> simp [hr, hg]

theorem tells_addClip (c : Clip) (k : Tells s t) : Tells s (t.addClip c) := tells_raised k rfl rfl

theorem tells_removeClip (c : Clip) (k : Tells s t) : Tells s (t.removeClip c) := tells_raised k rfl rfl

theorem tells_modOpenCounts (angles : List Angle) (f : Nat → Nat) (k : Tells s t) :
    Tells s (t.modOpenCounts angles f) := k.trans (Tells.refl t : Tells t (t.modOpenCounts angles f))

/-- A change of the two counts of a clip alone tells nothing (R62). -/
theorem tells_modCounts (id serial : Nat) (f : Clip → Clip)
    (hf : ∀ c, { f c with useCount := 0, scansPending := 0 } = { c with useCount := 0, scansPending := 0 })
    (k : Tells s t) : Tells s (t.modClip id serial f) := by
  have e : (t.modClip id serial f).tableFields = t.tableFields := by
    simp only [State.tableFields, State.modClip, List.map_map]
    apply List.map_congr_left
    intro c _
    simp only [Function.comp]
    split
    · exact hf c
    · rfl
  refine k.trans ?_
  unfold Tells
  rw [e]
  cases h : t.clips.raised <;> simp [State.modClip, h]

theorem tells_addUse (id serial : Nat) (k : Tells s t) : Tells s (t.addUse id serial) :=
  tells_modCounts _ _ _ (fun _ => rfl) k

theorem tells_pages (x : PageStore) (k : Tells s t) : Tells s { t with pages := x } :=
  k.trans (Tells.refl t : Tells t { t with pages := x })

theorem tells_scanCompleted (id serial : Nat) (k : Tells s t) : Tells s (t.scanCompleted id serial) := by
  unfold State.scanCompleted
  repeat' split
  all_goals first
    | exact k
    | exact tells_raised k rfl rfl
    | exact tells_modCounts _ _ _ (fun _ => rfl) k

theorem tells_settleFrom (l : List Scan) (k : Tells s t) : Tells s (t.settleFrom l) := by
  induction l generalizing t with
  | nil => exact tells_pages _ k
  | cons sc rest ih =>
    unfold State.settleFrom
    split
    · exact ih (tells_scanCompleted _ _ (tells_pages _ k))
    · exact tells_pages _ k

theorem tells_settleScans (k : Tells s t) : Tells s t.settleScans := tells_settleFrom _ k

theorem tells_headHold (start : Nat) (a : Angle) (k : Tells s t) : Tells s (t.headHold start a) :=
  k.frame (frame_headHold (m := [.pages]) (by simp) start a (Frame.refl _ _)) (by decide)

theorem tells_queueScan (c : Clip) (kind : ScanKind) (rule : VisitRule) (start : Nat) (stop : Option Nat) (head : Bool)
    (k : Tells s t) : Tells s (t.queueScan c kind rule start stop head) := by
  unfold State.queueScan
  refine tells_modCounts _ _ _ (fun _ => rfl) (tells_pages _ ?_)
  split
  · exact Tells.foldl _ _ (fun _ _ hu => tells_headHold _ _ hu) k
  · exact k

theorem tells_scanVisit (k : Tells s t) : Tells s t.scanVisit := by
  have k' := tells_settleScans k
  unfold State.scanVisit
  dsimp only
  split
  · exact k'
  · split
    · exact k'
    · split
      · exact k'
      · exact tells_settleScans
          ((tells_pages _ k').frame (frame_visitPage (m := [.pages]) (by simp) _ _ (Frame.refl _ _)) (by decide))

theorem tells_startDeletion (c : Clip) (k : Tells s t) : Tells s (t.startDeletion c) :=
  tells_settleScans (tells_queueScan _ _ _ _ _ _ (tells_raised k rfl rfl))

theorem tells_dropUse (id serial : Nat) (k : Tells s t) : Tells s (t.dropUse id serial) := by
  unfold State.dropUse
  split
  · exact k
  · have k' := tells_modCounts id serial (fun d => { d with useCount := d.useCount - 1 }) (fun _ => rfl) k
    dsimp only
    repeat' split
    all_goals first | exact k' | exact tells_startDeletion _ k' | exact tells_removeClip _ k'

/-! ### Marks and commands on a clip -/

theorem tells_takeMarkIn (stn : Station) (k : Tells s t) : Tells s (t.takeMarkIn stn).1 := by
  unfold State.takeMarkIn
  split
  · unfold State.createOpen
    split
    · exact k
    · exact tells_settleScans (tells_queueScan _ _ _ _ _ _ (tells_modOpenCounts _ _ (tells_addClip _ k)))
  · unfold State.reMark
    split
    · exact k
    · dsimp only
      split
      · exact k
      · split <;> exact tells_settleScans (tells_queueScan _ _ _ _ _ _ (tells_raised k rfl rfl))

theorem tells_closeClip (c : Clip) (mark : Nat) (k : Tells s t) : Tells s (t.closeClip c mark).1 := by
  unfold State.closeClip
  refine tells_settleScans (tells_queueScan _ _ _ _ _ _ ?_)
  have k' := fun f g => tells_modOpenCounts c.angles g (tells_raised (u := t.modClip c.id c.serial f) k rfl rfl)
  split
  · exact tells_queueScan _ _ _ _ _ _ (k' _ _)
  · exact k' _ _

theorem tells_takeMarkOut (stn : Station) (k : Tells s t) : Tells s (t.takeMarkOut stn).1 := by
  unfold State.takeMarkOut
  split
  · exact tells_closeClip _ _ k
  · unfold State.createClosing
    split
    · exact k
    · exact tells_settleScans (tells_queueScan _ _ _ _ _ _ (tells_addClip _ k))

theorem tells_graceMarkOut (stn : Station) (k : Tells s t) : Tells s (t.graceMarkOut stn) := by
  unfold State.graceMarkOut
  split
  · exact tells_closeClip _ _ k
  · exact k

theorem tells_protectRule (wanted : Bool) (c : Clip) (k : Tells s t) : Tells s (protectRule wanted c t).1 := by
  unfold protectRule
  repeat' split
  all_goals first | exact k | exact tells_settleScans (tells_queueScan _ _ _ _ _ _ (tells_raised k rfl rfl))

theorem tells_deleteRule (c : Clip) (k : Tells s t) : Tells s (deleteRule c t).1 := by
  unfold deleteRule
  repeat' split
  all_goals first
    | exact k
    | exact tells_startDeletion _ (tells_modOpenCounts _ _ k)
    | exact tells_raised k rfl rfl
    | exact tells_startDeletion _ k

theorem tells_editClip (c d : Clip) (k : Tells s t) : Tells s (t.editClip c d) := by
  unfold State.editClip
  split
  · exact k
  · exact tells_raised k rfl rfl

/-! ### Channels that enter and leave CLIP -/

theorem tells_leaveClip (c : Chan) (k : Tells s t) : Tells s (t.leaveClip c) := by
  unfold State.leaveClip
  repeat' split
  all_goals first
    | exact k
    | exact tells_dropUse _ _ (k.frame (frame_modChan (m := [.channels]) (by simp) _ _ (fun _ => by rfl)
        (fun _ => ⟨by rfl, by rfl⟩) (Frame.refl _ _)) (by decide))

theorem tells_enterClip (c : Chan) (clip : Clip) (a : Angle) (pace : CuePace) (running : Bool) (k : Tells s t) :
    Tells s (t.enterClip c clip a pace running) :=
  (tells_addUse _ _ (tells_leaveClip c k)).frame (m := [.channels, .pages, .links])
    (frame_place (by simp) (by simp) _ _ (frame_modChan (by simp) _ _ (fun _ => by rfl) (fun _ => ⟨by rfl, by rfl⟩)
      (frame_noteLimited (by simp) (by simp) _ _ (Frame.refl _ _)))) (by decide)

end Sys2Proof.Machine
end

