-- ==== Sys2Proof/Laws/Motion.lean ====
section
/-! SUPPORT. Laws/Motion.lean: what moves a playhead, said once: a pin moves no span and no anchor page, and
the followers of a leader are each given their playhead from it (R47, R107, R109); and the step of a FIT (R116). -/

namespace Sys2Proof.Machine

variable {s : State}

/-! ### Pins keep spans and anchor pages -/

/-- A change of page records that keeps their numbers and first frames. -/
abbrev KeepsPlaces (f : Page → Page) : Prop := ∀ p, (f p).firstFrame = p.firstFrame ∧ (f p).number = p.number

theorem lowerPage_map {f : Page → Page} (hf : KeepsPlaces f) (l : List Page) (frame : Nat) :
    lowerPage (l.map f) frame = (lowerPage l frame).map f := by
  have : (fun p => decide (p.firstFrame ≤ frame)) ∘ f = fun p : Page => decide (p.firstFrame ≤ frame) := by
    funext p; simp [(hf p).1]
  simp [lowerPage, List.filter_map, this, List.getLast?_map]

theorem lowerPage_number_map {f : Page → Page} (hf : KeepsPlaces f) (l : List Page) (frame : Nat) :
    (lowerPage (l.map f) frame).map (·.number) = (lowerPage l frame).map (·.number) := by
  rw [lowerPage_map hf, Option.map_map]
  congr 1
  funext p
  exact (hf p).2

theorem keepsPlaces_if {f : Page → Page} (hf : KeepsPlaces f) (n : Nat) :
    KeepsPlaces fun p => if p.number = n then f p else p := by
  intro p; dsimp only; split
  · exact hf p
  · exact ⟨rfl, rfl⟩

theorem span_modPage {f : Page → Page} (hf : KeepsPlaces f) (n : Nat) (a : Angle) :
    (s.modPage n f).span a = s.span a := by
  have hl : (s.modPage n f).pageList a = (s.pageList a).map fun p => if p.number = n then f p else p := by simp
  have hr : (s.modPage n f).recorder a = s.recorder a := rfl
  have hfs : (s.modPage n f).frameSpan a = s.frameSpan a := rfl
  simp only [State.span, hl, hr, hfs, List.head?_map]
  cases h : (s.pageList a).head? with
  | none => rfl
  | some p =>
    have h1 := (keepsPlaces_if hf n p).1
    dsimp only [Option.map_some] at h1 ⊢
    cases (s.recorder a).liveEdge <;> simp only [h1]

theorem anchorPage_modPage {f : Page → Page} (hf : KeepsPlaces f) (n : Nat) (a : Angle) (position : Nat) :
    (s.modPage n f).anchorPage a position = s.anchorPage a position := by
  have hl : (s.modPage n f).pageList a = (s.pageList a).map fun p => if p.number = n then f p else p := by simp
  have hfs : (s.modPage n f).frameSpan a = s.frameSpan a := rfl
  rw [State.anchorPage, State.anchorPage, hl, hfs, lowerPage_number_map (keepsPlaces_if hf n)]

theorem span_modPage? {f : Page → Page} (hf : KeepsPlaces f) (n : Option Nat) (a : Angle) :
    (s.modPage? n f).span a = s.span a := by
  cases n with
  | none => rfl
  | some n => exact span_modPage hf n a

theorem anchorPage_modPage? {f : Page → Page} (hf : KeepsPlaces f) (n : Option Nat) (a : Angle) (position : Nat) :
    (s.modPage? n f).anchorPage a position = s.anchorPage a position := by
  cases n with
  | none => rfl
  | some n => exact anchorPage_modPage hf n a position

@[simp] theorem span_movePin (old new : Option Nat) (a : Angle) : (s.movePin old new).span a = s.span a := by
  unfold State.movePin
  split
  · rfl
  · rw [span_modPage?, span_modPage?] <;> exact fun _ => ⟨rfl, rfl⟩

@[simp] theorem anchorPage_movePin (old new : Option Nat) (a : Angle) (position : Nat) :
    (s.movePin old new).anchorPage a position = s.anchorPage a position := by
  unfold State.movePin
  split
  · rfl
  · rw [anchorPage_modPage?, anchorPage_modPage?] <;> exact fun _ => ⟨rfl, rfl⟩

@[simp] theorem chan_movePin (old new : Option Nat) (c : Chan) : (s.movePin old new).chan c = s.chan c := by
  unfold State.movePin
  split
  · rfl
  · cases old <;> cases new <;> rfl

/-! ### Placed playheads -/

theorem chan_writeHead (c d : Chan) (h : Playhead) :
    (s.writeHead c h).chan d =
      if d = c then { s.chan c with head := some { h with anchor := s.anchorPage h.angle h.position } } else s.chan d := by
  simp only [State.writeHead, chan_modChan, chan_movePin]
  split
  · next e => subst e; rfl
  · rfl

@[simp] theorem span_writeHead (c : Chan) (h : Playhead) (a : Angle) : (s.writeHead c h).span a = s.span a :=
  span_movePin ..

@[simp] theorem anchorPage_writeHead (c : Chan) (h : Playhead) (a : Angle) (position : Nat) :
    (s.writeHead c h).anchorPage a position = s.anchorPage a position := anchorPage_movePin ..

@[simp] theorem followersOf_writeHead (c d : Chan) (h : Playhead) :
    (s.writeHead c h).followersOf d = s.followersOf d := by
  simp only [State.followersOf, chan_writeHead]
  by_cases e : d = c
  · subst e; simp
  · simp [e]

@[simp] theorem span_followOne (l f : Chan) (a : Angle) : (s.followOne l f).span a = s.span a := by
  unfold State.followOne
  split
  · exact span_writeHead ..
  · rfl

@[simp] theorem anchorPage_followOne (l f : Chan) (a : Angle) (position : Nat) :
    (s.followOne l f).anchorPage a position = s.anchorPage a position := by
  unfold State.followOne
  split
  · exact anchorPage_writeHead ..
  · rfl

theorem chan_followOne_ne {l f d : Chan} (h : d ≠ f) : (s.followOne l f).chan d = s.chan d := by
  unfold State.followOne
  split
  · simp [chan_writeHead, h]
  · rfl

theorem followHead_congr {t : State} (h : ∀ a, t.span a = s.span a) (leader follower : Playhead) :
    t.followHead leader follower = s.followHead leader follower := by
  simp [State.followHead, State.liveEnd, h]

theorem head_followOne {l f : Chan} {hl hf : Playhead} (h1 : (s.chan l).head = some hl) (h2 : (s.chan f).head = some hf) :
    ((s.followOne l f).chan f).head =
      some { s.followHead hl hf with
        anchor := s.anchorPage (s.followHead hl hf).angle (s.followHead hl hf).position } := by
  simp [State.followOne, h1, h2, chan_writeHead]

/-- The followers of a list are moved one after another; another channel stands. -/
theorem chan_followers_ne (l d : Chan) (fs : List Chan) (h : d ∉ fs) (t : State) :
    (fs.foldl (fun t f => t.followOne l f) t).chan d = t.chan d := by
  induction fs generalizing t with
  | nil => rfl
  | cons f rest ih =>
    simp only [List.mem_cons, not_or] at h
    rw [List.foldl_cons, ih h.2, chan_followOne_ne h.1]

theorem span_followers (l : Chan) (fs : List Chan) (a : Angle) (t : State) :
    (fs.foldl (fun t f => t.followOne l f) t).span a = t.span a := by
  induction fs generalizing t with
  | nil => rfl
  | cons f rest ih => rw [List.foldl_cons, ih, span_followOne]

/-- Each follower of a list takes the playhead it takes from the leader's, in the state before the moves (R109). -/
theorem head_followers {l f : Chan} {hl hf : Playhead} (fs : List Chan) (t : State) (hm : f ∈ fs) (hn : fs.Nodup)
    (hlf : l ∉ fs) (h1 : (t.chan l).head = some hl) (h2 : (t.chan f).head = some hf) :
    ((fs.foldl (fun t f => t.followOne l f) t).chan f).head =
      some { t.followHead hl hf with
        anchor := t.anchorPage (t.followHead hl hf).angle (t.followHead hl hf).position } := by
  induction fs generalizing t with
  | nil => simp at hm
  | cons g rest ih =>
    simp only [List.mem_cons, not_or] at hlf
    rw [List.nodup_cons] at hn
    rw [List.foldl_cons]
    by_cases hg : f = g
    · subst hg
      rw [chan_followers_ne _ _ _ hn.1, head_followOne h1 h2]
    · have hm' : f ∈ rest := by simpa [hg] using hm
      rw [ih (t.followOne l g) hm' hn.2 hlf.2 (by rw [chan_followOne_ne hlf.1]; exact h1)
        (by rw [chan_followOne_ne hg]; exact h2)]
      rw [followHead_congr (fun a => span_followOne l g a), anchorPage_followOne]

/-! ### Steps of a FIT -/

/-- What a step of FIT can do: it carries exactly when the error term reaches D (R116). -/
theorem SpeedMode.step_fit (d q r e : Nat) :
    d ≤ e + r ∧ SpeedMode.step (.fit d q r e) = ((q : Int) + 1, .fit d q r (e + r - d)) ∨
      e + r < d ∧ SpeedMode.step (.fit d q r e) = ((q : Int), .fit d q r (e + r)) := by
  unfold SpeedMode.step
  by_cases h : d ≤ e + r
  · exact .inl ⟨h, by simp [h]⟩
  · exact .inr ⟨by omega, by simp [h]⟩

end Sys2Proof.Machine
end

