-- ==== Sys2Proof/Laws/PerInstr.lean ====
section
/-! SUPPORT. Laws/PerInstr.lean: what holds of each command as syntax: it is sent by a station exactly when it is a message
of 11.3, whose kind is in the catalogue. -/

namespace Sys2Proof.Laws.SentAsMessage

/-- A command has a sender exactly when it has a message, and the kind of the message is in the catalogue of section 9.5. -/
def Statement (i : Instr) : Prop :=
  (i.sender = none ↔ encodeMessage i = none) ∧ ∀ m, encodeMessage i = some m → m.1 ∈ catalogue

theorem ofEvent {i : Instr} (h : i.sender = none) (he : encodeMessage i = none) : Statement i :=
  ⟨iff_of_true h he, fun m hm => by rw [he] at hm; cases hm⟩

theorem mem_catalogue (kind : CommandKind) : kind ∈ catalogue := by cases kind <;> decide

theorem ofMessage {i : Instr} {k : Station} {m : CommandKind × List Byte} (h : i.sender = some k)
    (he : encodeMessage i = some m) : Statement i :=
  ⟨iff_of_false (by simp [h]) (by simp [he]), fun m _ => mem_catalogue m.1⟩

theorem hardwareReset (moment : Nat) : Statement (Instr.hardwareReset moment) := ofEvent rfl rfl
theorem referencePulse (moment : Nat) (order : List Reaction) :
    Statement (Instr.referencePulse moment order) := ofEvent rfl rfl
theorem timerEvent (order : List Reaction) : Statement (Instr.timerEvent order) := ofEvent rfl rfl
theorem referenceLoss (order : List Reaction) : Statement (Instr.referenceLoss order) := ofEvent rfl rfl
theorem angleAbsent (a : Angle) : Statement (Instr.angleAbsent a) := ofEvent rfl rfl
theorem arrivalNotice (angle : BitVec 4) (stamp : BitVec 16) (phase : BitVec 3) :
    Statement (Instr.arrivalNotice angle stamp phase) := ofEvent rfl rfl
theorem writeCompletion (angle : BitVec 4) (slot : BitVec 20) (status : BitVec 2) :
    Statement (Instr.writeCompletion angle slot status) := ofEvent rfl rfl
theorem scanVisit : Statement (Instr.scanVisit) := ofEvent rfl rfl
theorem fetchCompletion (channel : BitVec 3) (tag : BitVec 8) (status : BitVec 2) :
    Statement (Instr.fetchCompletion channel tag status) := ofEvent rfl rfl
theorem coolDownEnd (stn : Station) (c : Chan) : Statement (Instr.coolDownEnd stn c) := ofEvent rfl rfl
theorem claimTimeout (stn : Station) : Statement (Instr.claimTimeout stn) := ofEvent rfl rfl
theorem linkLoss (k : Station) : Statement (Instr.linkLoss k) := ofEvent rfl rfl
theorem graceExpiry (k : Station) : Statement (Instr.graceExpiry k) := ofEvent rfl rfl
theorem alertTimerExpiry (k : Station) (alert : Alert) : Statement (Instr.alertTimerExpiry k alert) := ofEvent rfl rfl
theorem interbyteTimeout (k : Station) (moment : Nat) (order : List Reaction) :
    Statement (Instr.interbyteTimeout k moment order) := ofEvent rfl rfl
theorem deskFrame (k : Station) (bytes : List RxByte) (moment : Nat) (order : List Reaction) :
    Statement (Instr.deskFrame k bytes moment order) := ofEvent rfl rfl
theorem markIn (stn : Station) : Statement (Instr.markIn stn) := ofMessage rfl rfl
theorem markOut (stn : Station) : Statement (Instr.markOut stn) := ofMessage rfl rfl
theorem protect (stn : Station) (id serial : BitVec 16) : Statement (Instr.protect stn id serial) := ofMessage rfl rfl
theorem unprotect (stn : Station) (id serial : BitVec 16) :
    Statement (Instr.unprotect stn id serial) := ofMessage rfl rfl
theorem delete (stn : Station) (id serial : BitVec 16) : Statement (Instr.delete stn id serial) := ofMessage rfl rfl
theorem label (stn : Station) (id serial : BitVec 16) (text : List (BitVec 7)) :
    Statement (Instr.label stn id serial text) := ofMessage rfl rfl
theorem tagAdd (stn : Station) (id serial : BitVec 16) (tag : Byte) :
    Statement (Instr.tagAdd stn id serial tag) := ofMessage rfl rfl
theorem tagRemove (stn : Station) (id serial : BitVec 16) (tag : Byte) :
    Statement (Instr.tagRemove stn id serial tag) := ofMessage rfl rfl
theorem hero (stn : Station) (id serial : BitVec 16) (angle : Byte) :
    Statement (Instr.hero stn id serial angle) := ofMessage rfl rfl
theorem play (stn : Station) (channel : Byte) (pace : Pace) :
    Statement (Instr.play stn channel pace) := ofMessage rfl rfl
theorem pause (stn : Station) (channel : Byte) : Statement (Instr.pause stn channel) := ofMessage rfl rfl
theorem live (stn : Station) (channel : Byte) : Statement (Instr.live stn channel) := ofMessage rfl rfl
theorem load (stn : Station) (channel angle : Byte) (houseFrame : BitVec 32) :
    Statement (Instr.load stn channel angle houseFrame) := ofMessage rfl rfl
theorem angle (stn : Station) (channel angle : Byte) : Statement (Instr.angle stn channel angle) := ofMessage rfl rfl
theorem unload (stn : Station) (channel : Byte) : Statement (Instr.unload stn channel) := ofMessage rfl rfl
theorem black (stn : Station) (channel : Byte) : Statement (Instr.black stn channel) := ofMessage rfl rfl
theorem unblack (stn : Station) (channel : Byte) : Statement (Instr.unblack stn channel) := ofMessage rfl rfl
theorem gang (stn : Station) (leader : Byte) (followers : List Byte) :
    Statement (Instr.gang stn leader followers) := ofMessage rfl rfl
theorem ungang (stn : Station) (channel : Byte) : Statement (Instr.ungang stn channel) := ofMessage rfl rfl
theorem loadClip (stn : Station) (channel : Byte) (id serial : BitVec 16) (angle : Byte) (pace : Pace) :
    Statement (Instr.loadClip stn channel id serial angle pace) := ofMessage rfl rfl
theorem cueAdd (stn : Station) (channel : Byte) (id serial : BitVec 16) (angle : Byte) (pace : Pace) :
    Statement (Instr.cueAdd stn channel id serial angle pace) := ofMessage rfl rfl
theorem cueClear (stn : Station) (channel : Byte) : Statement (Instr.cueClear stn channel) := ofMessage rfl rfl
theorem cueNext (stn : Station) (channel : Byte) : Statement (Instr.cueNext stn channel) := ofMessage rfl rfl
theorem claim (stn : Station) (channel : Byte) : Statement (Instr.claim stn channel) := ofMessage rfl rfl
theorem cancel (stn : Station) : Statement (Instr.cancel stn) := ofMessage rfl rfl
theorem release (stn : Station) (channel : Byte) : Statement (Instr.release stn channel) := ofMessage rfl rfl
theorem select (stn : Station) (channel : Byte) : Statement (Instr.select stn channel) := ofMessage rfl rfl
theorem cut (stn : Station) (channel : Byte) : Statement (Instr.cut stn channel) := ofMessage rfl rfl
theorem preview (stn : Station) (channel : Byte) : Statement (Instr.preview stn channel) := ofMessage rfl rfl
theorem take (stn : Station) : Statement (Instr.take stn) := ofMessage rfl rfl
theorem forceRelease (stn : Station) (channel : Byte) : Statement (Instr.forceRelease stn channel) := ofMessage rfl rfl
theorem list (stn : Station) (filter : Filter) : Statement (Instr.list stn filter) := ofMessage rfl rfl
theorem angleSet (stn : Station) (angle rateMultiple : Byte) (quota : BitVec 16) :
    Statement (Instr.angleSet stn angle rateMultiple quota) := ofMessage rfl rfl
theorem recStart (stn : Station) (angle : Byte) : Statement (Instr.recStart stn angle) := ofMessage rfl rfl
theorem recStop (stn : Station) (angle : Byte) : Statement (Instr.recStop stn angle) := ofMessage rfl rfl
theorem houseRate (stn : Station) (hundredths : BitVec 16) (moment : Nat) (order : List Reaction) :
    Statement (Instr.houseRate stn hundredths moment order) := ofMessage rfl rfl
theorem curveSet (stn : Station) (points : List (BitVec 16)) :
    Statement (Instr.curveSet stn points) := ofMessage rfl rfl
theorem linkSet (stn : Station) (k enable divisor : Byte) :
    Statement (Instr.linkSet stn k enable divisor) := ofMessage rfl rfl
theorem stationSet (stn : Station) (target markSet : Byte) (preroll preset : BitVec 16) (blend : Byte) :
    Statement (Instr.stationSet stn target markSet preroll preset blend) := ofMessage rfl rfl
theorem statsTimeBase (stn : Station) (index : Byte) (clear part : Bool) :
    Statement (Instr.statsTimeBase stn index clear part) := ofMessage rfl rfl
theorem statsRecorder (stn : Station) (index : Byte) (clear part : Bool) :
    Statement (Instr.statsRecorder stn index clear part) := ofMessage rfl rfl
theorem statsPageStore (stn : Station) (index : Byte) (clear part : Bool) :
    Statement (Instr.statsPageStore stn index clear part) := ofMessage rfl rfl
theorem statsChannel (stn : Station) (index : Byte) (clear part : Bool) :
    Statement (Instr.statsChannel stn index clear part) := ofMessage rfl rfl
theorem statsLink (stn : Station) (index : Byte) (clear part : Bool) :
    Statement (Instr.statsLink stn index clear part) := ofMessage rfl rfl
theorem restart (stn : Station) : Statement (Instr.restart stn) := ofMessage rfl rfl
theorem reportTransmissionEnd (k : Station) : Statement (Instr.reportTransmissionEnd k) := ofEvent rfl rfl
theorem resetLineHeld : Statement (Instr.resetLineHeld) := ofEvent rfl rfl

end Sys2Proof.Laws.SentAsMessage
end

