-- ==== Sys2Proof/Tests/Slice0.lean ====
section
/-! SUPPORT. Tests/Slice0.lean: the modeller's own tests, named theorems on fixed values: ill-formed commands, words and
messages written out from chapter 11, values that the spec's text gives, one small step of every command, and for each
obligation with hypotheses a state and operands that meet them, clause by clause. -/

namespace Sys2Proof.Tests

set_option Elab.async false

open Sys2Proof Sys2Proof.Machine

/-! ### Ill-formed commands -/

theorem test_wf_pulse_refuses_repeated_reaction : Instr.wf (.referencePulse 0 [.arbiter, .arbiter]) = false := by decide
theorem test_wf_timer_refuses_repeated_reaction : Instr.wf (.timerEvent [.recorder, .arbiter, .recorder]) = false := by decide
theorem test_wf_loss_refuses_repeated_reaction : Instr.wf (.referenceLoss [.channel 3, .channel 3]) = false := by decide
theorem test_wf_gap_refuses_repeated_reaction : Instr.wf (.interbyteTimeout 0 0 [.linkWatch 1, .linkWatch 1]) = false := by
  decide
theorem test_wf_frame_refuses_repeated_reaction : Instr.wf (.deskFrame 0 [] 0 [.linkReport 1, .linkReport 1]) = false := by
  decide
theorem test_wf_rate_refuses_repeated_reaction : Instr.wf (.houseRate 0 5000 0 [.arbiter, .arbiter]) = false := by decide
theorem test_wf_label_refuses_26_characters : Instr.wf (.label 1 1 1 (List.replicate 26 65)) = false := by decide
theorem test_wf_label_takes_25_characters : Instr.wf (.label 1 1 1 (List.replicate 25 65)) = true := by decide
theorem test_wf_gang_refuses_no_follower : Instr.wf (.gang 1 1 []) = false := by decide
theorem test_wf_gang_refuses_four_followers : Instr.wf (.gang 1 1 [2, 3, 4, 2]) = false := by decide
theorem test_wf_curve_refuses_ten_points : Instr.wf (.curveSet 0 (List.replicate 10 0)) = false := by decide
theorem test_wf_curve_refuses_twelve_points : Instr.wf (.curveSet 0 (List.replicate 12 0)) = false := by decide

/-! ### Words and messages written out from chapter 11 -/

/-- A command message of a station, kind code first, read. -/
def read (stn : Station) : List Byte → Option Message
  | code :: args => (CommandKind.ofCode? code.toNat).map fun kind => decodeMessage stn 0 [] kind args
  | [] => none

/-- The words of the opcode table spell no command: it gives no row any bits. -/
theorem test_table_words_spell_nothing : decodeTableWord 64 0x4000000000000000 = none := rfl

/-- Type 1, angle 3, phase 2, stamp 0x1234: 01 0011 010 0001001000110100 and 39 zero bits (11.4). -/
theorem test_arrival_notice_word : decodeIngestWord 0x4D091A0000000000 = some (.arrivalNotice 3 0x1234 2) := by decide

/-- Type 2, angle 8, slot 0x80001, status 1: 10 1000 10000000000000000001 01 and 36 zero bits (11.4). -/
theorem test_write_completion_word : decodeIngestWord 0xA200005000000000 = some (.writeCompletion 8 0x80001 1) := by
  decide

theorem test_ingest_type_0_is_discarded : decodeIngestWord 0x0D091A0000000000 = none := by decide
theorem test_ingest_type_3_is_discarded : decodeIngestWord 0xCD091A0000000000 = none := by decide

/-- Channel 4, tag 0xA5, status 2: 100 10100101 10 and 51 zero bits (11.4). -/
theorem test_fetch_completion_word : decodeFetchWord 0x94B0000000000000 = .fetchCompletion 4 0xA5 2 := by decide

theorem test_read_mark_in : read 1 [1] = some (.row (.markIn 1)) := by decide
theorem test_read_mark_out : read 4 [2] = some (.row (.markOut 4)) := by decide
theorem test_read_protect : read 1 [3, 1, 2, 3, 4] = some (.row (.protect 1 0x0102 0x0304)) := by decide
theorem test_read_unprotect : read 1 [4, 1, 2, 3, 4] = some (.row (.unprotect 1 0x0102 0x0304)) := by decide
theorem test_read_delete : read 1 [5, 1, 2, 3, 4] = some (.row (.delete 1 0x0102 0x0304)) := by decide
/-- "AB": 1000001 1000010 packed is 10000011 000010 and two zero bits (R187). -/
theorem test_read_label : read 2 [6, 0, 5, 0, 9, 2, 0x83, 0x08] = some (.row (.label 2 5 9 [65, 66])) := by
  decide +kernel
theorem test_read_tag_add : read 1 [7, 0, 5, 0, 9, 200] = some (.row (.tagAdd 1 5 9 200)) := by decide
theorem test_read_tag_remove : read 1 [8, 0, 5, 0, 9, 200] = some (.row (.tagRemove 1 5 9 200)) := by decide
theorem test_read_hero : read 1 [9, 0, 5, 0, 9, 8] = some (.row (.hero 1 5 9 8)) := by decide
theorem test_read_play : read 1 [16, 2, 1, 0xFD, 0x30] = some (.row (.play 1 2 (.speed 0xFD30))) := by decide
theorem test_read_pause : read 1 [17, 2] = some (.row (.pause 1 2)) := by decide
theorem test_read_live : read 1 [18, 2] = some (.row (.live 1 2)) := by decide
theorem test_read_load : read 1 [19, 2, 7, 1, 2, 3, 4] = some (.row (.load 1 2 7 0x01020304)) := by decide
theorem test_read_angle : read 1 [20, 2, 7] = some (.row (.angle 1 2 7)) := by decide
theorem test_read_unload : read 1 [21, 2] = some (.row (.unload 1 2)) := by decide
theorem test_read_black : read 1 [22, 2] = some (.row (.black 1 2)) := by decide
theorem test_read_unblack : read 1 [23, 2] = some (.row (.unblack 1 2)) := by decide
theorem test_read_gang : read 1 [24, 1, 4, 2] = some (.row (.gang 1 1 [4, 2])) := by decide
theorem test_read_ungang : read 1 [25, 2] = some (.row (.ungang 1 2)) := by decide
theorem test_read_load_clip : read 1 [32, 2, 1, 2, 3, 4, 5, 2, 0, 40] =
    some (.row (.loadClip 1 2 0x0102 0x0304 5 (.duration 40))) := by decide
theorem test_read_cue_add : read 1 [33, 2, 1, 2, 3, 4, 0, 0, 9, 9] =
    some (.row (.cueAdd 1 2 0x0102 0x0304 0 .none)) := by decide
theorem test_read_cue_clear : read 1 [34, 2] = some (.row (.cueClear 1 2)) := by decide
theorem test_read_cue_next : read 1 [35, 2] = some (.row (.cueNext 1 2)) := by decide
theorem test_read_claim : read 3 [48, 2] = some (.row (.claim 3 2)) := by decide
theorem test_read_cancel : read 3 [49] = some (.row (.cancel 3)) := by decide
theorem test_read_release : read 3 [50, 2] = some (.row (.release 3 2)) := by decide
theorem test_read_select : read 3 [51, 0] = some (.row (.select 3 0)) := by decide
theorem test_read_cut : read 3 [52, 2] = some (.row (.cut 3 2)) := by decide
theorem test_read_preview : read 3 [53, 2] = some (.row (.preview 3 2)) := by decide
theorem test_read_take : read 3 [54] = some (.row (.take 3)) := by decide
theorem test_read_force_release : read 0 [55, 2] = some (.row (.forceRelease 0 2)) := by decide
theorem test_read_list : read 3 [64, 2, 17] = some (.row (.list 3 (.tag 17))) := by decide
theorem test_read_angle_set : read 0 [80, 8, 4, 1, 0] = some (.row (.angleSet 0 8 4 256)) := by decide
theorem test_read_rec_start : read 0 [81, 8] = some (.row (.recStart 0 8)) := by decide
theorem test_read_rec_stop : read 0 [82, 8] = some (.row (.recStop 0 8)) := by decide
theorem test_read_house_rate : read 0 [83, 0x17, 0x6A] = some (.row (.houseRate 0 5994 0 [])) := by decide
theorem test_read_curve_set : read 0 [84, 0, 0, 0, 1, 0, 2, 0, 3, 0, 4, 0, 5, 0, 6, 0, 7, 0, 8, 0, 9, 0xFF, 0xFF] =
    some (.row (.curveSet 0 [0, 1, 2, 3, 4, 5, 6, 7, 8, 9, 0xFFFF])) := by decide
theorem test_read_link_set : read 0 [85, 4, 1, 16] = some (.row (.linkSet 0 4 1 16)) := by decide
theorem test_read_station_set : read 0 [86, 3, 0x81, 1, 0, 0xFD, 0x30, 1] =
    some (.row (.stationSet 0 3 0x81 256 0xFD30 1)) := by decide
theorem test_read_stats : read 0 [87, 2, 8, 3] = some (.row (.statsRecorder 0 8 true true)) := by decide
theorem test_read_stats_unknown_block : read 0 [87, 6, 0, 0] = some .unknownBlock := by decide
theorem test_read_restart : read 0 [88] = some (.row (.restart 0)) := by decide
theorem test_read_refuses_spare_byte : read 1 [17, 2, 0] = some .unfit := by decide
theorem test_read_refuses_unknown_kind : read 1 [10] = none := by decide

/-! ### Values that the spec's text gives -/

/-- R185: the CRC of "123456789". -/
theorem test_crc_of_nine_digits : crc16 [49, 50, 51, 52, 53, 54, 55, 56, 57] = 10673 := by decide +kernel

/-- R90's column of lever speeds on the default curve. -/
theorem test_lever_speed_in_the_curve : leverSpeed defaultCurve 25 = 54 ∧ leverSpeed defaultCurve (-47) = -162 := by
  decide

/-- R19's example at house count 200,000. -/
theorem test_stamps_resolve : resolveStamp 200000 3390 = some 199998 ∧ resolveStamp 200000 3393 = some 134465 := by
  decide

/-- R115 on a clip of 32 house frames with D = 8: q is the limit itself, and one house frame more is limited. -/
theorem test_fit_terms_at_the_limit :
    fitTerms (32 * 720) 8 = (.fit 8 2880 0 0, false) ∧ fitTerms (33 * 720) 8 = (.fit 8 2880 0 0, true) := by decide

/-- R116 at the greatest base step that is not limited: the carry steps by 2,881. -/
theorem test_fit_carry_at_the_limit : SpeedMode.step (.fit 8 2880 1 7) = (2881, .fit 8 2880 1 0) := by decide

/-- The bytes of a desk frame of 3 with lever −1, MARK IN held and a TAKE: 165, length 7, station 3, payload, CRC. -/
theorem test_desk_frame_bytes :
    (DeskFrame.bytes 3 { lever := 255, jog := 0, keys := 1, listingHold := false, toggle := true, command := some [54] }
      ).take 9 = [165, 7, 3, 255, 0, 1, 6, 1, 54] := by decide +kernel

/-! ### A small part in use -/

/-- A sealed page of angle 1, frames 10 to 73, with the anchor pin of channel 1. -/
def page7 : Page :=
  { number := 7, state := .sealed, firstFrame := 10, count := 64, faulted := [], clipHolds := 0, anchorPins := 1,
    fetchHolds := 0, writeHolds := 0 }

/-- The FILLING page of angle 1, frames 74 to 136, one short of full. -/
def page8 : Page :=
  { number := 8, state := .filling, firstFrame := 74, count := 63, faulted := [], clipHolds := 0, anchorPins := 0,
    fetchHolds := 0, writeHolds := 0 }

/-- A CLOSED clip of station 1 on angle 1, house frames 20 to 30. -/
def clip1 : Clip :=
  { id := 1, serial := 9, state := .closed, owner := 1, angles := [0], inMark := 20, outMark := some 30,
    isProtected := false, hero := 0, label := [], tags := [], useCount := 0, scansPending := 0, trimmed := false }

/-- An OPEN clip of station 2 on angle 1. -/
def clip2 : Clip :=
  { id := 2, serial := 10, state := .opened, owner := 2, angles := [0], inMark := 100, outMark := none,
    isProtected := true, hero := 0, label := [], tags := [], useCount := 0, scansPending := 0, trimmed := false }

/-- Channel 1 PAUSED on angle 1 at house frame 20. -/
def head1 : Playhead :=
  { mode := .paused, angle := 0, position := 14400, speed := 0, clamp := false, anchor := some 7 }

/-- A part with angle 1 recording, two clips, channel 1 held and selected by station 1, and a free pool of two pages. -/
def desk : State :=
  { State.reset with
    timeBase := { TimeBase.reset with houseCount := 200 }
    recorders := vmod State.reset.recorders 0 fun r =>
      { r with state := .recording, quota := 8, expected := some 137, newest := some 136, liveEdge := some 136,
               present := true, silence := 0 }
    pages := { PageStore.reset with pool := [100, 101], lists := vmod PageStore.reset.lists 0 fun _ => [page7, page8] }
    clips := { ClipTable.reset with
      clips := [clip1, clip2], serialCounter := 11, openCounts := vmod ClipTable.reset.openCounts 0 fun _ => 1 }
    channels := vmod State.reset.channels 0 fun ch => { ch with head := some head1 }
    arbiter := { Arbiter.reset with holders := vmod Arbiter.reset.holders 0 fun _ => some 1 }
    links := vmod State.reset.links 1 fun l => { l with state := .up, selected := some 0, toggleSynced := true } }

/-- The state after a command. -/
def after (i : Instr) (s : State) : State :=
  match exec i s with
  | .next t => t
  | _ => s

/-- The result and result data in the ack area of a station after its command. -/
def answerOf (i : Instr) (stn : Station) (s : State) : Option Result × List Byte :=
  (((after i s).link stn).ack.result, ((after i s).link stn).ack.data)

/-- Channel 1 in another mode, at a speed. -/
def desk.inMode (mode : Mode) (speed : Int) : State := desk.modHead 0 fun h => { h with mode := mode, speed := speed }

/-- A clip context on the CLOSED clip. -/
def context (running : Bool) (mode : SpeedMode) : ClipContext :=
  { clipId := 1, serial := 9, running := running, endReached := false, mode := mode }

/-- Channel 1 in CLIP on the CLOSED clip, with its use counted. -/
def desk.inClip (running : Bool) (mode : SpeedMode) : State :=
  (desk.inMode (.clip (context running mode)) 0).addUse 1 9

/-- Channel 1 leads channels 2 and 3, which stand PAUSED on angle 1 and are held by station 1. -/
def desk.inGang : State :=
  { desk with
    channels := #v[{ Channel.reset with head := some head1, gang := .leader [1, 2] },
      { Channel.reset with head := some head1, gang := .follower 0 },
      { Channel.reset with head := some head1, gang := .follower 0 }, Channel.reset]
    arbiter := { Arbiter.reset with holders := #v[some 1, some 1, some 1, none] } }

/-! ### One small step of each command -/

theorem test_step_hardware_reset : (after (.hardwareReset 5) desk).timeBase.lastEvent = 5 ∧
    ((after (.hardwareReset 5) desk).chan 0).head = none := by decide +kernel
theorem test_step_reference_pulse : (after (.referencePulse 7 []) desk).timeBase.unqualifiedCount = 1 ∧
    (after (.referencePulse 7 []) desk).timeBase.houseCount = 200 := by decide +kernel
theorem test_step_timer_event : (after (.timerEvent []) desk).timeBase.houseCount = 201 ∧
    (after (.timerEvent []) desk).timeBase.lastEvent = 2050050 := by decide +kernel
theorem test_step_reference_loss :
    let s := { desk with timeBase := { desk.timeBase with ref := .locked, lastPulse := some 1000 } }
    (after (.referenceLoss []) s).timeBase.ref = .free ∧
      (after (.referenceLoss []) s).timeBase.lastEvent = 1000 + 4100096 := by decide +kernel
theorem test_step_angle_absent :
    let s := desk.modRecorder 0 fun r => { r with silence := 2 }
    ((after (.angleAbsent 0) s).recorder 0).present = false ∧ ((after (.angleAbsent 0) s).link 0).alerts.get (.absent 0) = 60 :=
  by decide +kernel
theorem test_step_arrival_notice :
    (after (.arrivalNotice 1 137 0) desk).ingestOut = [.grant 1 0 137 (8 * 64 + 63) 200] ∧
      ((after (.arrivalNotice 1 137 0) desk).recorder 0).newest = some 137 := by decide +kernel
theorem test_step_write_completion :
    let s := desk.modRecorder 0 fun r => { r with pendingWrites := [{ slot := 575, page := 8, frame := 136 }] }
    ((after (.writeCompletion 1 575 1) s).pageList 0).map (·.faulted) = [[], [63]] ∧
      ((after (.writeCompletion 1 574 0) s).recorder 0).counts.portFaults = 1 := by decide +kernel
theorem test_step_scan_visit :
    let s := { desk with pages := { desk.pages with scans :=
      [{ clipId := 1, serial := 9, kind := .add, rule := .cover, angles := [{ angle := 0, bound := none, progress := none }],
         start := 20, stop := some 80, headAtOnce := false }] } }
    ((after .scanVisit s).pageList 0).map (·.clipHolds) = [1, 0] ∧
      ((after .scanVisit (after .scanVisit s)).pageList 0).map (·.clipHolds) = [1, 1] := by decide +kernel
theorem test_step_fetch_completion :
    let s := desk.modChan 0 fun ch =>
      { ch with inFlight := [{ tag := 3, black := false, pageA := some 7, pageB := none, superseded := false }] }
    ((after (.fetchCompletion 1 3 0) s).chan 0).lastShown = some 3 ∧
      ((after (.fetchCompletion 1 4 0) s).chan 0).counts.unmatched = 1 := by decide +kernel
/-- A FAULT of a superseded fetch of a frame counts as a read fault and as stale (R130, R140). -/
theorem test_step_fetch_fault_superseded :
    let s := desk.modChan 0 fun ch =>
      { ch with inFlight := [{ tag := 3, black := false, pageA := some 7, pageB := none, superseded := true }] }
    ((after (.fetchCompletion 1 3 1) s).chan 0).counts.stale = 1 ∧
      ((after (.fetchCompletion 1 3 1) s).chan 0).counts.readFaults = 1 := by decide +kernel
theorem test_step_cool_down_end :
    (after (.coolDownEnd 2 3) (desk.setCoolDown 2 3 (some 1))).coolDownRun 2 3 = none := by decide +kernel
theorem test_step_claim_timeout :
    answerOf (.claimTimeout 2) 2 (desk.setPendingClaim 2 (some { channel := 0, age := 49 })) = (some .timeout, [1]) := by
  decide +kernel
theorem test_step_link_loss :
    let s := (desk.inMode .play 720).modLink 1 fun l => { l with lossCount := 7 }
    ((after (.linkLoss 1) s).link 1).state = .lost ∧
      ((after (.linkLoss 1) s).chan 0).head = some head1 := by decide +kernel
theorem test_step_grace_expiry :
    let s := desk.modLink 1 fun l => { l with state := .lost, graceCount := 299 }
    ((after (.graceExpiry 1) s).link 1).state = .down ∧ (after (.graceExpiry 1) s).holder 0 = none := by decide +kernel
theorem test_step_alert_timer_expiry :
    let s := desk.modLink 1 fun l => { l with alerts := l.alerts.set .keyIgnored 1 }
    ((after (.alertTimerExpiry 1 .keyIgnored) s).link 1).alerts.get .keyIgnored = 0 := by decide +kernel
theorem test_step_interbyte_timeout :
    let s := desk.modLink 1 fun l => { l with rx := cleanBytes [165, 7, 1] }
    ((after (.interbyteTimeout 1 0 []) s).link 1).counts.formatFaults = 1 ∧
      ((after (.interbyteTimeout 1 0 []) s).link 1).rx = [] := by decide +kernel
/-- A frame with a new toggle and a PLAY of channel 1 at 360 grains. -/
theorem test_step_desk_frame :
    let f : DeskFrame :=
      { lever := 0, jog := 0, keys := 0, listingHold := false, toggle := true, command := some [16, 1, 1, 1, 0x68] }
    let t := after (.deskFrame 1 (cleanBytes (f.bytes 1)) 0 []) desk
    (t.chan 0).head = some { head1 with mode := .play, speed := 360 } ∧ (t.link 1).toggleSeen = true := by decide +kernel
/-- A station without an OPEN clip marks at its channel's house frame, 20. -/
theorem test_step_mark_in :
    answerOf (.markIn 1) 1 desk = (some .ok, [0, 3, 0, 11, 0, 0, 0, 20, 0, 0, 0, 0, 0]) := by decide +kernel
theorem test_step_mark_out :
    answerOf (.markOut 2) 2 desk = (some .ok, [0, 2, 0, 10, 0, 0, 0, 100, 0, 0, 0, 0, 199]) := by decide +kernel
theorem test_step_protect : (after (.protect 1 1 9) desk).pages.scans.length = 1 := by decide +kernel
theorem test_step_unprotect : answerOf (.unprotect 1 1 9) 1 desk = (some .ok, []) := by decide +kernel
theorem test_step_delete : (after (.delete 1 1 9) desk).clips.clips = [clip2] := by decide +kernel
theorem test_step_label : (after (.label 1 1 9 [72, 105]) desk).clips.clips = [{ clip1 with label := [72, 105] }, clip2] := by
  decide +kernel
theorem test_step_tag_add : (after (.tagAdd 0 1 9 5) desk).clips.clips = [{ clip1 with tags := [5] }, clip2] := by
  decide +kernel
theorem test_step_tag_remove : answerOf (.tagRemove 1 1 9 0) 1 desk = (some .badArgument, []) := by decide +kernel
theorem test_step_hero : answerOf (.hero 2 1 9 1) 2 desk = (some .notOwner, []) := by decide +kernel
theorem test_step_play : ((after (.play 1 1 (.speed 0xF000)) desk).chan 0).head =
    some { head1 with mode := .play, speed := -2880 } := by decide +kernel
theorem test_step_pause : ((after (.pause 1 1) (desk.inMode .play 720)).chan 0).head = some head1 := by decide +kernel
theorem test_step_live : ((after (.live 1 1) desk).chan 0).head =
    some { head1 with mode := .live, position := 136 * 720, speed := 720, anchor := some 8 } := by decide +kernel
theorem test_step_load : ((after (.load 1 1 1 137) desk).chan 0).head =
    some { head1 with position := 136 * 720, clamp := true, anchor := some 8 } := by decide +kernel
theorem test_step_angle : answerOf (.angle 1 1 2) 1 desk = (some .noMaterial, []) := by decide +kernel
theorem test_step_unload : ((after (.unload 1 1) desk).chan 0).head = none ∧
    ((after (.unload 1 1) desk).pageList 0).map (·.anchorPins) = [0, 0] := by decide +kernel
theorem test_step_black : ((after (.black 1 1) desk).chan 0).black = true := by decide +kernel
theorem test_step_unblack : ((after (.unblack 1 1) desk).chan 0).black = false := by decide +kernel
theorem test_step_gang :
    let s := (desk.modChan 1 fun ch => { ch with head := some { head1 with position := 7200 } }).setHolder 1 (some 1)
    ((after (.gang 1 1 [2]) s).chan 1).head = some head1 ∧ ((after (.gang 1 1 [2]) s).chan 1).gang = .follower 0 := by
  decide +kernel
theorem test_step_ungang : ((after (.ungang 1 2) desk.inGang).chan 0).gang = .leader [2] := by decide +kernel
theorem test_step_load_clip : (answerOf (.loadClip 1 1 1 9 0 (.duration 11)) 1 desk) =
    (some .ok, [1, 0, 0, 0, 20, 0, 0, 2, 208, 0, 0, 0]) := by decide +kernel
theorem test_step_cue_add : answerOf (.cueAdd 1 1 1 9 0 .none) 1 desk = (some .ok, [1]) := by decide +kernel
theorem test_step_cue_clear :
    ((after (.cueClear 1 1) (desk.modChan 0 fun ch => { ch with staged := true })).chan 0).staged = false := by decide +kernel
theorem test_step_cue_next : answerOf (.cueNext 1 1) 1 desk = (some .noClip, []) := by decide +kernel
theorem test_step_claim : (after (.claim 2 1) desk).pendingClaim 2 = some { channel := 0, age := 0 } := by decide +kernel
theorem test_step_cancel :
    answerOf (.cancel 2) 2 (desk.setPendingClaim 2 (some { channel := 0, age := 3 })) = (some .ok, [1, 1]) := by
  decide +kernel
theorem test_step_release : (after (.release 1 1) desk).holder 0 = none ∧
    (after (.release 1 1) desk).coolDownRun 1 0 = some 0 := by decide +kernel
theorem test_step_select : ((after (.select 1 0) desk).link 1).selected = none := by decide +kernel
theorem test_step_cut : (after (.cut 0 2) desk).arbiter.pgm = 1 ∧ (after (.cut 0 2) desk).arbiter.pvw = 0 := by
  decide +kernel
theorem test_step_preview : (after (.preview 0 3) desk).arbiter.pvw = 2 := by decide +kernel
theorem test_step_take : (after (.take 0) desk).arbiter.pgm = 1 ∧ (after (.take 0) desk).arbiter.pvw = 0 := by
  decide +kernel
theorem test_step_force_release : (after (.forceRelease 0 1) desk).coolDownRun 1 0 = some 0 := by decide +kernel
theorem test_step_list : ((after (.list 1 .own) desk).link 1).listing = .running .own 1 := by decide +kernel
theorem test_step_angle_set : answerOf (.angleSet 0 2 4 7) 0 desk = (some .ok, [2, 4, 0, 8]) := by decide +kernel
theorem test_step_rec_start : answerOf (.recStart 0 2) 0 desk = (some .ok, [2, 1]) := by decide +kernel
theorem test_step_rec_stop : ((after (.recStop 0 1) desk).pageList 0).map (·.state) = [.sealed, .sealed] := by
  decide +kernel
theorem test_step_house_rate : answerOf (.houseRate 0 5000 0 []) 0 desk = (some .ok, [0x13, 0x88, 0]) := by decide +kernel
theorem test_step_curve_set : (after (.curveSet 0 [0, 0, 0, 0, 0, 0, 0, 0, 0, 0, 3000]) desk).curve =
    #v[0, 0, 0, 0, 0, 0, 0, 0, 0, 0, 2880] := by decide +kernel
theorem test_step_link_set : answerOf (.linkSet 0 1 0 16) 0 desk = (some .ok, [1, 0, 16, 0]) ∧
    (after (.linkSet 0 1 0 16) desk).holder 0 = none := by decide +kernel
theorem test_step_station_set : (after (.stationSet 0 4 0x81 0 0xF000 0) desk).setting 4 =
    { markSet := [0, 7], preroll := 1, playPreset := -2880, blend := false } := by decide +kernel
theorem test_step_stats_time_base :
    answerOf (.statsTimeBase 0 0 false false) 0 desk = (some .ok, List.replicate 12 0) := by decide +kernel
theorem test_step_stats_recorder : answerOf (.statsRecorder 0 1 true true) 0 desk =
    (some .ok, [1, 1, 0, 8, 1, 3, 0, 0, 0, 0, 136, 0, 0, 0, 0, 136]) := by decide +kernel
theorem test_step_stats_page_store : answerOf (.statsPageStore 0 1 false false) 0 desk =
    (some .ok, [0, 0, 0, 0, 0, 0, 0, 0, 0, 2, 0, 8, 1, 0, 0, 0, 0, 10]) := by decide +kernel
theorem test_step_stats_channel : answerOf (.statsChannel 0 5 false false) 0 desk = (some .badArgument, []) := by
  decide +kernel
theorem test_step_stats_link :
    (answerOf (.statsLink 0 1 false false) 0 desk).2.drop 40 = [2, 1, 4, 1] := by decide +kernel
theorem test_step_restart : (after (.restart 0) desk).holder 0 = none ∧
    ((after (.restart 0) desk).link 1).state = .down ∧ ((after (.restart 0) desk).pageList 0).length = 2 := by decide +kernel
theorem test_step_report_transmission_end :
    let s := after (.timerEvent []) desk
    (s.link 1).tx.isSome = true ∧ ((after (.reportTransmissionEnd 1) s).link 1).tx = none := by decide +kernel
theorem test_step_reset_line_held : (after .resetLineHeld desk).resetHeld = true ∧
    after .scanVisit (after .resetLineHeld desk) = after .resetLineHeld desk := by decide +kernel

/-! ### Hypotheses of the obligations, met: time base, recorder, page store

Each theorem is named for its obligation and lists, clause by clause, a state and operands that meet the hypotheses. -/

/-- RESET held. -/
def heldDesk : State := { desk with resetHeld := true }

/-- The time base with a last pulse at 1,000. -/
def desk.pulsed (ref : RefState) (run lastEvent : Nat) : State :=
  { desk with timeBase := { desk.timeBase with
      ref := ref, qualifyingRun := run, lastPulse := some 1000, lastEvent := lastEvent } }

/-- Angle 1 in another record context. -/
def desk.record (f : RecContext → RecContext) : State := desk.modRecorder 0 f

/-- Every page placed, page 0 full on angle 1. -/
def placed : State :=
  { State.reset with
    timeBase := { TimeBase.reset with houseCount := 64 }
    recorders := vmod State.reset.recorders 0 fun r =>
      { r with state := .recording, expected := some 64, newest := some 63, liveEdge := some 63 }
    pages := { PageStore.reset with
      pool := List.range' 1 16383
      lists := vmod PageStore.reset.lists 0 fun _ =>
        [{ number := 0, state := .filling, firstFrame := 0, count := 64, faulted := [], clipHolds := 0, anchorPins := 0,
           fetchHolds := 0, writeHolds := 0 }] } }

theorem placed_pagesPlaced (f : RecContext → RecContext) : (placed.modRecorder 0 f).PagesPlaced := by
  have h : (placed.modRecorder 0 f).pageNumbers = List.range' 1 16383 ++ [0] := rfl
  rw [State.PagesPlaced, h, show (16384 : Nat) = 16383 + 1 from rfl, List.range'_succ]
  exact List.perm_append_comm

theorem test_met_StepTakesTheFrontCommand :
    ({ desk with pending := [.scanVisit] } : State).pending = [.scanVisit] ∧ desk.pending = [] ∧
      desk.resetHeld = false ∧ heldDesk.pending = [] ∧ heldDesk.resetHeld = true := ⟨rfl, rfl, rfl, rfl, rfl⟩

theorem test_met_ResetAndTheHeldLine :
    heldDesk.resetHeld = true ∧ (∀ moment, Instr.scanVisit ≠ .hardwareReset moment) ∧ Instr.scanVisit ≠ .resetLineHeld :=
  ⟨rfl, nofun, nofun⟩

/-- Channel 1 leads channels 2 and 3; channel 4 stands in IDLE. -/
theorem test_met_HouseFrameRunsEveryReactionOnce :
    [Reaction.linkReport 4, .channel 3].Nodup ∧ (desk.chan 3).head = none ∧ desk.inGang.isFollower 1 = true ∧
      (0 : Chan) ∈ [(0 : Chan)] ∧ ((desk.inGang.chan 0).head ≠ none ∧ desk.inGang.isFollower 0 = false ∧
        (0 : Chan) ∉ [(3 : Chan)]) := by decide +kernel

/-- The tolerance at 59.94 runs from 2,009,048 to 2,091,048 fifths, and half a period is 1,025,024. -/
theorem test_met_HouseFrameEventsOfPulsesTimerAndLoss :
    desk.resetHeld = false ∧ (desk.pulsed .locked 0 0).timeBase.ref = .locked ∧ desk.timeBase.ref = .free ∧
      (¬ inTolerance .fps5994 (2010047 - 1000) ∧ ¬ inTolerance .fps5994 (2092049 - 1000)) ∧
      (inTolerance .fps5994 (2010048 - 1000) ∧ (desk.pulsed .free 2 0).timeBase.qualifyingRun < 3) ∧
      (inTolerance .fps5994 (2092048 - 1000) ∧ (desk.pulsed .free 3 0).timeBase.qualifyingRun = 3) ∧
      HouseRate.fps5994.period ≤ 2 * (2092048 - (desk.pulsed .free 3 1067024).timeBase.lastEvent) ∧
      2 * (2092048 - (desk.pulsed .free 3 1067025).timeBase.lastEvent) < HouseRate.fps5994.period ∧
      (desk.pulsed .locked 0 0).timeBase.lastPulse = some 1000 := by decide +kernel

theorem test_met_HouseRateTurnsToFree :
    desk.hears 0 ∧ (5000 : BitVec 16) = 5000 ∧ (5994 : BitVec 16) = 5994 ∧ (5993 : BitVec 16) ≠ 5000 ∧
      (5993 : BitVec 16) ≠ 5994 := by decide +kernel

theorem test_met_StampResolvesToTheGreatestFrame :
    ¬ 1 < (desk.recorder 0).rateMultiple ∧ resolveStamp desk.timeBase.houseCount 201 = none ∧
      desk.judgeNotice 0 137 0 = .ok 137 ∧ 65535 ≤ 65535 % 65536 ∧ (65536 % 65536 < 1 ∧ 65536 ≤ 65536) ∧
      (65534 % 65536 < 65535 ∧ 65534 < 65536) := ⟨by decide, by decide, rfl, by decide, by decide, by decide⟩

theorem test_met_NoticesAreGrantedOrRefused :
    (desk.resetHeld = false ∧ angleOf? (1 : BitVec 4).toNat = some 0 ∧ desk.judgeNotice 0 137 0 = .ok 137 ∧
      (desk.recorder 0).expected = some 137 ∧ desk.fillingPage 0 = some page8 ∧ page8.count < 64 ∧
      ((desk.pageList 0).map (·.number)).Nodup) ∧
    (placed.resetHeld = false ∧ (placed.modRecorder 0 id).PagesPlaced ∧ placed.judgeNotice 0 64 0 = .ok 64 ∧
      (placed.pageList 0).map (·.count) = [64] ∧ (placed.supplyPage 0 64).2 = some 1) ∧
    (let s := placed.modRecorder 0 fun r => { r with quota := 1 }
     s.PagesPlaced ∧ s.judgeNotice 0 64 0 = .ok 64 ∧ (s.supplyPage 0 64).2 = none) ∧
    (angleOf? (9 : BitVec 4).toNat = none ∧ angleOf? (8 : BitVec 4).toNat = some 7 ∧
      (desk.recorder 0).rateMultiple ≤ (1 : BitVec 3).toNat ∧ (desk.recorder 7).state ≠ .recording ∧
      (136 ≤ 136 ∧ (desk.recorder 0).newest = some 136) ∧
      (let s := desk.record fun r => { r with pendingWrites := [{ slot := 573, page := 8, frame := 135 },
          { slot := 574, page := 8, frame := 136 }] }
       2 ≤ (s.recorder 0).pendingWrites.length ∧ ¬ 137 ≤ 136)) :=
  ⟨⟨rfl, by decide, rfl, by decide, by decide, by decide, by decide⟩,
    ⟨rfl, placed_pagesPlaced _, rfl, by decide, by decide +kernel⟩, ⟨placed_pagesPlaced _, rfl, by decide +kernel⟩,
    by decide +kernel⟩

theorem test_met_WriteCompletionsMoveTheLiveEdge :
    let s := desk.record fun r => { r with pendingWrites := [{ slot := 574, page := 8, frame := 136 }] }
    s.resetHeld = false ∧ angleOf? (0 : BitVec 4).toNat = none ∧ angleOf? (8 : BitVec 4).toNat = some 7 ∧
      (s.recorder 7).pendingWrites = [] ∧ (s.recorder 0).pendingWrites = { slot := 574, page := 8, frame := 136 } :: [] ∧
      574 = (574 : BitVec 20).toNat ∧ (3 : BitVec 2) ≠ 0 := by decide +kernel

theorem test_met_CountsRiseAndReachTheirEnds :
    (let s := { desk.record fun r => { r with silence := 2 } with
       timeBase := { desk.timeBase with houseCount := 4294967295 } }
     4294967295 ≤ s.timeBase.houseCount ∧ (s.recorder 0).state = .recording ∧ (s.recorder 0).present = true ∧
       (s.recorder 0).silence = 2 ∧ s.resetHeld = false) ∧
    ((desk.recorder 0).silence < 2 ∧ (desk.recorder 7).silence = 3 ∧ desk.timeBase.houseCount < 4294967295) ∧
    ((desk.setCoolDown 4 3 (some 1)).coolDownRun 4 3 = some 1 ∧ (desk.setCoolDown 4 3 (some 1)).holder 3 = none ∧
      (desk.setCoolDown 4 3 (some 0)).coolDownRun 4 3 = some 0 ∧
      ((desk.setCoolDown 4 0 (some 1)).coolDownRun 4 0 = some 1 ∧ (desk.setCoolDown 4 0 (some 1)).holder 0 ≠ none) ∧
      desk.coolDownRun 4 3 = none) ∧
    ((desk.setPendingClaim 4 (some { channel := 3, age := 49 })).pendingClaim 4 = some { channel := 3, age := 49 } ∧
      (desk.setPendingClaim 4 (some { channel := 3, age := 48 })).pendingClaim 4 = some { channel := 3, age := 48 } ∧
      desk.pendingClaim 4 = none) ∧
    ((desk.modLink 4 fun l => { l with alerts := l.alerts.set (.absent 7) 1 }).link 4).alerts.get (.absent 7) = 1 ∧
    ((desk.link 4).state = .down ∧ ((desk.modLink 4 fun l => { l with state := .off }).link 4).state = .off) ∧
    (let s := fun n : Nat => desk.modLink 1 fun l => { l with lossCount := n }
     ((s 6).link 1).state = .up ∧ ((s 6).link 1).lossCount < 7 ∧ ((s 7).link 1).lossCount = 7) ∧
    (let s := fun n : Nat => desk.modLink 1 fun l => { l with state := .lost, graceCount := n }
     ((s 298).link 1).state = .lost ∧ ((s 298).link 1).graceCount < 299 ∧ ((s 299).link 1).graceCount = 299) := by
  decide +kernel

theorem test_met_RecordStatesAndAngleSet :
    desk.hears 0 ∧ angleOf? (8 : Byte).toNat = some 7 ∧ (desk.recorder 7).state = .stopped ∧
      (desk.timeBase.houseCount < 4294967295 ∧
        4294967295 ≤ ({ desk with timeBase := { desk.timeBase with houseCount := 4294967295 } } : State).timeBase.houseCount) ∧
      (desk.recorder 0).state = .recording ∧ ((desk.record fun r => { r with state := .halted }).recorder 0).state = .halted ∧
      (1 ≤ (4 : Byte).toNat ∧ (4 : Byte).toNat ≤ 4) ∧
      ((desk.record fun r => { r with state := .stopped }).recorder 0).state = .stopped ∧ (desk.chan 0).head = some head1 ∧
      (desk.modHead 0 fun h => { h with angle := 3 }).pageList 0 = [page7, page8] ∧
      0 < page7.clipHolds + page7.anchorPins + page7.fetchHolds + page7.writeHolds ∧ desk.pageList 7 = [] ∧
      (angleOf? (0 : Byte).toNat = none ∧ angleOf? (9 : Byte).toNat = none) ∧
      ((0 : Byte).toNat < 1 ∧ 4 < (5 : Byte).toNat) := by
  decide +kernel

/-- A scan of the CLOSED clip. -/
def scanOf (kind : ScanKind) (rule : VisitRule) (start : Nat) (stop : Option Nat) (bound progress : Option Nat) : Scan :=
  { clipId := 1, serial := 9, kind := kind, rule := rule, start := start, stop := stop, headAtOnce := false
    angles := [{ angle := 0, bound := bound, progress := progress }] }

/-- A part whose running scan is this one. -/
def desk.scanning (sc : Scan) : State := { desk with pages := { desk.pages with scans := [sc] } }

theorem test_met_SupplyDrawsOrReclaimsOrStarves :
    ((desk.pageList 0).length < (desk.recorder 0).quota ∧ desk.pages.pool = 100 :: [101]) ∧
    (let s := (desk.record fun r => { r with quota := 2 }).modPage 7 fun p => { p with anchorPins := 0 }
     (s.recorder 0).quota ≤ (s.pageList 0).length ∧
       s.pageList 0 = [] ++ { page7 with anchorPins := 0 } :: [page8] ∧ page7.state = .sealed) ∧
    (let s := desk.record fun r => { r with quota := 2 }
     (s.recorder 0).quota ≤ (s.pageList 0).length ∧ (s.pageList 0).dropLast = [page7] ∧ page7.anchorPins = 1) ∧
    (desk.pages.scans = [] ∧
      (let sc := { scanOf .add .lead 20 (some 30) none none with clipId := 2, serial := 10 }
       (desk.scanning sc).pages.scans = [] ++ sc :: [] ∧ sc.clipId = clip2.id ∧ sc.serial = clip2.serial ∧
         sc.kind = .add ∧ sc.stop = some 30) ∧
      (scanOf .remove .lead 20 (some 30) none none).kind = .remove) := by
  decide +kernel

theorem test_met_PagesStayPlaced :
    (placed.modRecorder 0 id).PagesPlaced ∧
      step (placed.modRecorder 0 id) = .next (placed.modRecorder 0 id).handOver := ⟨placed_pagesPlaced _, rfl⟩

theorem test_met_ScansVisitThePagesOfTheirRule :
    [page7, page8].Pairwise (fun p q => p.firstFrame < q.firstFrame) ∧ [page7, page8].length ≤ 2 ∧
      (scanOf .add .cover 20 (some 80) none none).stop = some 80 ∧
      (scanOf .add .cover 20 none (some 74) none).rule = .cover ∧ lowerPage [page7, page8] 74 = some page8 ∧
      lowerPage [page7, page8] 73 = some page7 ∧ lowerPage [page7, page8] 9 = none ∧
      lowerPage ([page7, page8].filter fun p => p.firstFrame ≤ 73) 80 = some page7 ∧
      (scanOf .remove .tail 74 (some 74) none none).rule = .tail ∧ (scanOf .remove .tail 74 none none none).rule ≠ .lead := by
  decide +kernel

theorem test_met_ScansAreQueuedVisitedAndCompleted :
    (let sc := scanOf .add .cover 20 (some 30) none none
     (desk.scanning sc).pages.scans = sc :: [] ∧
       (sc.angles.dropWhile fun sa => ((desk.scanning sc).nextVisit sc sa).isNone) ≠ []) ∧
    (let sc := scanOf .add .cover 20 (some 30) none (some 20)
     (desk.scanning sc).settleScans.pages.scans = [] ∧
       (sc.angles.dropWhile fun sa => ((desk.scanning sc).nextVisit sc sa).isNone) = []) ∧
    (desk.resetHeld = false ∧ desk.pages.scans = [] ∧ desk.clips.raised = false) ∧
    (let sc := scanOf .add .cover 20 (some 30) none none
     (desk.scanning sc).pages.scans = sc :: [] ∧
       (desk.scanning sc).nextVisit sc { angle := 0, bound := none, progress := none } = some (page7, 20)) ∧
    (let sc := scanOf .remove .cover 20 (some 30) none none
     let s := (desk.scanning sc).modPage 7 fun p => { p with clipHolds := 1 }
     s.nextVisit sc { angle := 0, bound := none, progress := none } = some ({ page7 with clipHolds := 1 }, 20)) ∧
    (let sc := scanOf .remove .cover 20 (some 30) none none
     (desk.scanning sc).nextVisit sc { angle := 0, bound := none, progress := none } = some (page7, 20) ∧
       page7.clipHolds = 0) ∧
    desk.findClip 1 10 = none ∧ (desk.modClip 1 9 fun c => { c with scansPending := 2 }).findClip 1 9 =
      some { clip1 with scansPending := 2 } ∧
    (desk.modClip 1 9 fun c => { c with scansPending := 1, state := .closing }).findClip 1 9 =
      some { clip1 with scansPending := 1, state := .closing } ∧
    (desk.modClip 1 9 fun c => { c with scansPending := 1, state := .deleting }).findClip 1 9 =
      some { clip1 with scansPending := 1, state := .deleting } ∧
    (desk.modClip 1 9 fun c => { c with scansPending := 1 }).findClip 1 9 = some { clip1 with scansPending := 1 } := by
  decide +kernel

/-! ### Hypotheses of the obligations, met: clip table -/

/-- A full table. -/
def fullTable : State :=
  { desk with clips := { desk.clips with clips := (List.range' 1 512).map fun i => { clip1 with id := i, serial := i } } }

theorem fullTable_freeId : fullTable.freeId = none := by
  rw [State.freeId, List.find?_eq_none]
  intro i hi
  have : (fullTable.clips.clips.any fun c => c.id = i) = true :=
    List.any_eq_true.mpr ⟨{ clip1 with id := i, serial := i }, List.mem_map_of_mem hi, by simp⟩
  simp [this]

/-- The OPEN clip with scans pending. -/
def desk.openScans (n : Nat) : State := desk.modClip 2 10 fun c => { c with scansPending := n }

/-- Station 2 selects channel 1, which stands at this house frame. -/
def desk.marking (h : Nat) (scans : Nat) : State :=
  ((desk.openScans scans).modHead 0 fun x => { x with position := h * 720 }).modLink 2 fun l => { l with selected := some 0 }

theorem test_met_MarkInCreatesOrReMarks :
    (fullTable.hears 1 ∧ fullTable.openClip 1 = none ∧ fullTable.freeId = none) ∧
    (desk.hears 1 ∧ desk.openClip 1 = none ∧ desk.freeId = some 3) ∧ (desk.hears 2 ∧ desk.openClip 2 = some clip2) ∧
    (desk.openScans 1).openClip 2 = some { clip2 with scansPending := 1 } ∧
    ((desk.marking 100 0).mark 2 = 100 ∧ (desk.marking 99 0).mark 2 = 99 ∧ (desk.marking 101 0).mark 2 = 101 ∧
      (desk.marking 100 0).openClip 2 = some clip2) :=
  ⟨⟨by decide +kernel, by decide +kernel, fullTable_freeId⟩, by decide +kernel⟩

theorem test_met_MarkOutClosesOrCreates :
    (desk.hears 2 ∧ desk.openClip 2 = some clip2) ∧ clip2.inMark ≤ (desk.marking 100 0).mark 2 ∧
    (desk.marking 99 0).mark 2 < clip2.inMark ∧
    ((desk.marking 99 1).openClip 2 = some { clip2 with scansPending := 1 } ∧ (desk.marking 99 1).mark 2 < 100) ∧
    (desk.openClip 1 = none ∧ desk.freeId = some 3) ∧ fullTable.openClip 1 = none ∧ fullTable.freeId = none :=
  ⟨by decide +kernel, by decide +kernel, by decide +kernel, by decide +kernel, by decide +kernel, by decide +kernel,
    fullTable_freeId⟩

/-- The material of angle 1 is house frames 10 to 136. -/
theorem test_met_MarksAreTrimmedToMaterial :
    (desk.link 0).selected = none ∧ ((desk.link 1).selected = some 0 ∧ (desk.chan 0).head = some head1) ∧
      ((desk.modLink 0 fun l => { l with selected := some 2 }).link 0).selected = some 2 ∧ (desk.chan 2).head = none ∧
      (∀ a ∈ [(0 : Angle)], 0 < (desk.recorder a).rateMultiple) ∧
      [page7, page8].Pairwise (fun p q => p.firstFrame + p.count ≤ q.firstFrame) ∧ (∀ p ∈ [page7, page8], 0 < p.count) ∧
      desk.pageList 0 = [page7, page8] ∧ desk.pageList 7 = [] ∧
      (page8.firstFrame ≤ 136 ∧ 136 < page8.firstFrame + page8.count ∧ 136 * 1 ≤ 136 ∧ 136 ≤ (136 + 1) * 1 - 1) ∧
      (page7.firstFrame ≤ 10 ∧ 10 < page7.firstFrame + page7.count ∧ (9 + 1) * 1 ≤ 10) := by decide +kernel

theorem test_met_IdsSerialsAndGenerations :
    (1 ≤ desk.clips.serialCounter ∧ desk.clips.serialCounter ≤ 65535 ∧ ∃ x, 1 ≤ x ∧ x ≤ 65535 ∧
      ∀ c ∈ desk.clips.clips, c.serial ≠ x) ∧ desk.clips.raised = false ∧ desk.raiseGeneration.clips.raised = true :=
  ⟨⟨by decide, by decide, 65535, by decide, by decide, by decide⟩, rfl, rfl⟩

/-- A LABEL changes a field; the same label a second time changes none. -/
theorem test_met_GenerationRisesOnceInAnEvent :
    let i : Instr := .label 1 1 9 [72]
    desk.clips.raised = false ∧ exec i desk = .next (after i desk) ∧ (∀ moment, i ≠ .hardwareReset moment) ∧
      (∀ k bytes moment order, i ≠ .deskFrame k bytes moment order) ∧
      (∀ k moment order, i ≠ .interbyteTimeout k moment order) ∧
      (after i desk).clips.clips.map (·.label) ≠ desk.clips.clips.map (·.label) ∧
      (after i desk).clips.generation = 1 ∧ (after i (after i desk)).clips.generation = 1 :=
  ⟨rfl, rfl, nofun, nofun, nofun, by decide +kernel, by decide +kernel, by decide +kernel⟩

/-- The CLOSED clip changed. -/
def desk.clipAs (f : Clip → Clip) : State := desk.modClip 1 9 f

theorem test_met_ProtectionAndDeletion :
    (desk.hears 2 ∧ desk.ownsClip 2 2 10 clip2 ∧ clip2.state = .opened) ∧ (desk.hears 1 ∧ desk.ownsClip 1 1 9 clip1) ∧
    ((desk.clipAs fun c => { c with scansPending := 1 }).ownsClip 0 1 9 { clip1 with scansPending := 1 }) ∧
    (clip1.state = .closed ∧ ¬ 0 < clip1.scansPending ∧ clip1.isProtected = false) ∧
    ((desk.clipAs fun c => { c with state := .retiring }).ownsClip 1 1 9 { clip1 with state := .retiring }) ∧
    ((desk.clipAs fun c => { c with state := .closing }).ownsClip 1 1 9 { clip1 with state := .closing }) ∧
    ((desk.clipAs fun c => { c with useCount := 1 }).ownsClip 1 1 9 { clip1 with useCount := 1 }) ∧
    ((desk.clipAs fun c => { c with isProtected := true }).ownsClip 1 1 9 { clip1 with isProtected := true }) := by
  decide +kernel

theorem test_met_ClipFieldsAreCheckedAndEdited :
    (desk.hears 1 ∧ desk.ownsClip 1 1 9 clip1 ∧ clip1.state = .closed) ∧
    ((List.replicate 25 (65 : BitVec 7)).length ≤ 25 ∧ ¬ (List.replicate 25 (65 : BitVec 7)).length ≤ 24) ∧
    (∀ x ∈ [(32 : BitVec 7), 126], 32 ≤ x.toNat ∧ x.toNat ≤ 126) ∧ ({ clip1 with label := [32] } : Clip) ≠ clip1 ∧
    ((desk.clipAs fun c => { c with state := .deleting }).ownsClip 1 1 9 { clip1 with state := .deleting }) ∧
    ((desk.clipAs fun c => { c with tags := [1, 2, 3, 4] }).ownsClip 1 1 9 { clip1 with tags := [1, 2, 3, 4] } ∧
      (4 : Byte) ∈ [(1 : Byte), 2, 3, 4] ∧ (5 : Byte) ∉ [(1 : Byte), 2, 3, 4]) ∧
    ((∀ a, angleOf? (9 : Byte).toNat = some a → a ∉ clip1.angles) ∧ angleOf? (1 : Byte).toNat = some 0 ∧
      (0 : Angle) ∈ clip1.angles) ∧
    (desk.findClip (1 : BitVec 16).toNat (10 : BitVec 16).toNat = none ∧
      desk.findClip (1 : BitVec 16).toNat (9 : BitVec 16).toNat = some clip1 ∧ (2 : Station) ≠ clip1.owner) := by
  decide +kernel

/-- Channel 1 plays the CLOSED clip, which is as given. -/
def desk.using (f : Clip → Clip) : State := (desk.inMode (.clip (context true (.fixed 720))) 720).modClip 1 9 f

theorem test_met_UseCountsFollowTheChannels :
    let ctx := context true (.fixed 720)
    ((desk.using fun c => { c with useCount := 1 }).chan 0).head = some { head1 with mode := .clip ctx, speed := 720 } ∧
      (desk.using fun c => { c with useCount := 1 }).findClip ctx.clipId ctx.serial = some { clip1 with useCount := 1 } ∧
      (desk.using fun c => { c with useCount := 2, state := .retiring }).findClip 1 9 =
        some { clip1 with useCount := 2, state := .retiring } ∧
      (desk.using fun c => { c with useCount := 1, state := .retiring }).findClip 1 9 =
        some { clip1 with useCount := 1, state := .retiring } ∧
      (desk.using fun c => { c with useCount := 1, state := .retiring, isProtected := true }).findClip 1 9 =
        some { clip1 with useCount := 1, state := .retiring, isProtected := true } := by decide +kernel

/-! ### Hypotheses of the obligations, met: channels -/

/-- Angle 2 has frames 50 to 90. -/
def desk.onTwo (s : State) : State :=
  (s.modRecorder 1 fun r => { r with liveEdge := some 90 }).modPageList 1 fun _ =>
    [{ page7 with number := 9, firstFrame := 50, count := 41, anchorPins := 0 }]

/-- Channel 1 at a position. -/
def State.at (s : State) (position : Nat) : State := s.modHead 0 fun h => { h with position := position }

theorem head1_no_clip (ctx : ClipContext) : head1.mode ≠ .clip ctx := nofun

theorem test_met_PlayheadsMoveTheirPinsAndFollowers :
    desk.followersOf 0 = [] ∧ 0 ∉ desk.inGang.followersOf 0 ∧ (desk.inGang.followersOf 0).Nodup ∧
      2 ∈ desk.inGang.followersOf 0 ∧ (desk.inGang.chan 2).head = some head1 ∧
      desk.inGang.span head1.angle = some (7200, 97920) ∧ 7200 ≤ 97920 ∧ some 7 ≠ (none : Option Nat) ∧
    (desk.pageList 0 = page7 :: [page8] ∧ (desk.recorder 0).liveEdge = some 136 ∧ page7.firstFrame ≤ 136) ∧
    (((desk.record fun r => { r with liveEdge := some 9 }).recorder 0).liveEdge = some 9 ∧ 9 < page7.firstFrame) ∧
    (desk.pageList 7 = [] ∧ (desk.recorder 7).liveEdge = none) ∧ ((3 : Chan) ≠ 0 ∧ 3 ∉ desk.inGang.followersOf 0) := by
  decide +kernel

theorem test_met_PlayRunsTheChannelOrTheClip :
    (desk.hears 0 ∧ chanOf? (4 : Byte).toNat = some 3 ∧ desk.drives 0 3 ∧ desk.leaderOf 3 = 3 ∧ (desk.chan 3).head = none) ∧
    (desk.hears 1 ∧ chanOf? (1 : Byte).toNat = some 0 ∧ desk.drives 1 0 ∧ desk.leaderOf 0 = 0 ∧
      (desk.chan 0).head = some head1 ∧ ∀ ctx, head1.mode ≠ .clip ctx) ∧
    (desk.inGang.drives 1 2 ∧ desk.inGang.leaderOf 2 = 0) ∧
    (let s := desk.modLink 1 fun l => { l with engaged := true }
     (s.link 1).engaged = true ∧ s.leverTarget 1 = some 0) ∧
    (let ctx := context false (.fixed 720)
     let s := desk.inClip false (.fixed 720)
     s.hears 1 ∧ s.drives 1 0 ∧ s.leaderOf 0 = 0 ∧ (s.link 1).engaged = false ∧
       ((s.modLink 1 fun l => { l with engaged := true }).link 1).engaged = true ∧ s.leverTarget 1 = some 0 ∧
       (s.chan 0).head = some { head1 with mode := .clip ctx } ∧
       s.findClip ctx.clipId ctx.serial = some { clip1 with useCount := 1 } ∧ ctx.running = false) ∧
    (context true (.fixed 720)).running = true ∧ (30 + 1 - 20) * 720 / 3 ≤ 2880 ∧ 2880 < (30 + 1 - 20) * 720 / 2 :=
  ⟨by decide +kernel, ⟨by decide, by decide, by decide, by decide, by decide, head1_no_clip⟩, by decide +kernel,
    by decide +kernel, by decide +kernel, by decide, by decide, by decide⟩

theorem test_met_PauseLiveAndBlack :
    (desk.hears 0 ∧ chanOf? (4 : Byte).toNat = some 3 ∧ desk.drives 0 3 ∧ desk.leaderOf 3 = 3 ∧
      (desk.chan 3).head = none) ∧
    (desk.hears 1 ∧ chanOf? (1 : Byte).toNat = some 0 ∧ desk.drives 1 0 ∧ desk.leaderOf 0 = 0) ∧
    ((desk.inMode .live 720).chan 0).head = some { head1 with mode := .live, speed := 720 } ∧
    (desk.chan 0).head = some head1 ∧ head1.mode = .paused ∧
    ((desk.inClip true (.fixed 1)).chan 0).head = some { head1 with mode := .clip (context true (.fixed 1)) } ∧
    ((desk.inClip false (.fixed 1)).chan 0).head = some { head1 with mode := .clip (context false (.fixed 1)) } ∧
    desk.span head1.angle = some (7200, 97920) := by decide +kernel

theorem test_met_LoadAndUnload :
    (desk.hears 1 ∧ chanOf? (1 : Byte).toNat = some 0 ∧ desk.drives 1 0) ∧ angleOf? (0 : Byte).toNat = none ∧
      angleOf? (8 : Byte).toNat = some 7 ∧ desk.inGang.isFollower 2 = true ∧ desk.isFollower 0 = false ∧
      desk.span 7 = none ∧ desk.span 0 = some (7200, 97920) ∧ 7200 ≤ 97920 ∧ (desk.drives 0 3 ∧ (desk.chan 3).head = none) ∧
      (desk.chan 0).head = some head1 := by decide +kernel

theorem test_met_AngleKeepsTheMoment :
    (desk.hears 1 ∧ chanOf? (1 : Byte).toNat = some 0 ∧ desk.drives 1 0) ∧ angleOf? (9 : Byte).toNat = none ∧
    (angleOf? (2 : Byte).toNat = some 1 ∧ (desk.drives 0 3 ∧ (desk.chan 3).head = none)) ∧ desk.span 1 = none ∧
    ((desk.onTwo desk).span 1 = some (36000, 64800) ∧ 36000 ≤ 64800 ∧ ((desk.onTwo desk).chan 0).head = some head1 ∧
      (1 : Angle) ≠ head1.angle ∧ (desk.onTwo desk).isFollower 0 = false ∧ ∀ ctx, head1.mode ≠ .clip ctx) ∧
    (let s := desk.onTwo (desk.inClip true (.fixed 720))
     (s.chan 0).head = some { head1 with mode := .clip (context true (.fixed 720)) } ∧
       s.findClip 1 9 = some { clip1 with useCount := 1 } ∧ (1 : Angle) ∉ clip1.angles ∧ (0 : Angle) ∈ clip1.angles) ∧
    (let s := desk.onTwo desk.inGang
     s.hears 1 ∧ chanOf? (3 : Byte).toNat = some 2 ∧ s.drives 1 2 ∧ (s.chan 2).gang = .follower 0 ∧
       (s.chan 2).head = some head1 ∧ (s.chan 0).head = some head1 ∧ s.span 1 = some (36000, 64800)) :=
  ⟨by decide +kernel, by decide, by decide +kernel, by decide +kernel,
    ⟨by decide +kernel, by decide, by decide +kernel, by decide, by decide +kernel, head1_no_clip⟩, by decide +kernel,
    by decide +kernel⟩

/-- Channels 1 and 2 held by these and with a playhead each. -/
def desk.pair (a b : Option Station) : State :=
  ((desk.modChan 1 fun ch => { ch with head := some head1 }).setHolder 0 a).setHolder 1 b

theorem test_met_GangsAreJoinedAndBroken :
    (desk.hears 1 ∧ 1 ≤ [(2 : Byte), 3, 4].length ∧ [(2 : Byte), 3, 4].length ≤ 3) ∧ chanOf? (5 : Byte).toNat = none ∧
    (chanOf? (1 : Byte).toNat = some 0 ∧ [(2 : Byte)].map (fun f => chanOf? f.toNat) = [(1 : Chan)].map some ∧
      [(0 : Chan), 1].Nodup ∧ ¬ [(0 : Chan), 0].Nodup ∧ (allChans.filter fun c => [(1 : Chan)].contains c) = [1]) ∧
    (desk.pair (some 1) none).holder 1 ≠ some 1 ∧
    ((desk.pair (some 1) none).hears 0 ∧ (desk.pair (some 1) none).holder 0 ≠ none ∧
      (desk.pair (some 1) none).holder 0 ≠ some 0) ∧
    ((desk.pair (some 0) none).holder 0 = some 0 ∧ (desk.pair (some 0) none).holder 1 = none) ∧
    (∀ c ∈ [(0 : Chan), 1], (desk.pair (some 1) (some 1)).holder c = some 1) ∧
    (∀ c ∈ [(0 : Chan), 1], (desk.pair none none).holder c = none) ∧ (desk.chan 1).head = none ∧
    (∀ c ∈ [(0 : Chan), 1], ((desk.pair (some 1) (some 1)).chan c).head ≠ none ∧
      ((desk.pair (some 1) (some 1)).chan c).gang = .none) ∧
    (desk.inGang.hears 1 ∧ desk.inGang.drives 1 2 ∧ (desk.inGang.chan 2).gang = .follower 0 ∧
      (desk.inGang.chan 0).gang = .leader [1, 2] ∧ (0 : Chan) ≠ 2 ∧ (0 : Chan) ∉ [(1 : Chan), 2] ∧ [(1 : Chan), 2].Nodup ∧
      ∀ f ∈ [(1 : Chan), 2], (desk.inGang.chan f).gang = .follower 0) ∧
    (desk.drives 1 0 ∧ (desk.chan 0).gang = .none) := by
  refine ⟨?_, ?_, ?_, ?_, ?_, ?_, ?_, ?_, ?_, ?_, ?_, ?_⟩ <;> decide +kernel

theorem test_met_LeverSpeedInterpolatesTheCurve :
    (-100 : Int) ≤ 3 ∧ (3 : Int).natAbs ≤ 3 ∧ 3 < (-4 : Int).natAbs ∧ ((9 : Fin 10).val = (99 : Int).natAbs / 10) ∧
      (100 : Int).natAbs = 100 ∧ (∀ i : Fin 10, defaultCurve.get i.castSucc ≤ defaultCurve.get i.succ) ∧
      ∀ i : Fin 11, defaultCurve.get i ≤ 2880 := by decide

/-- A cue of the CLOSED clip, and one of no present clip. -/
def goodCue : Cue := { clipId := 1, serial := 9, angle := none, pace := .fixed 720 }
def badCue : Cue := { goodCue with serial := 8 }

theorem test_met_AdvancesMoveByTheirStep :
    (desk.chan 0).head = some head1 ∧ desk.span 0 = some (7200, 97920) ∧
    ((State.at (desk.inMode .shuttle 720) 97200).chan 0).head =
      some { head1 with mode := .shuttle, speed := 720, position := 97200 } ∧
    ((97200 : Nat) : Int) + 720 ≤ (97920 : Nat) ∧ ((97920 : Nat) : Int) < (97201 : Nat) + 720 ∧
    (desk.recorder 0).state = .recording ∧ ((97920 : Nat) : Int) < (97202 : Nat) + 719 ∧
    ((7200 : Nat) : Int) + (-1) < (7200 : Nat) ∧ (desk.inMode .live 720).chan 0 =
      { desk.chan 0 with head := some { head1 with mode := .live, speed := 720 } } ∧
    (let s := desk.inClip true (.fixed 720)
     (s.chan 0).head = some { head1 with mode := .clip (context true (.fixed 720)) } ∧
       s.findClip 1 9 = some { clip1 with useCount := 1 } ∧ (s.chan 0).cues = [] ∧ clip1.outMark = some 30) ∧
    (((30 + 1) * 720 : Nat) : Int) ≤ (21600 : Nat) + 720 ∧ ((21599 : Nat) : Int) + 720 < ((30 + 1) * 720 : Nat) ∧
    (desk.record fun r => { r with liveEdge := some 25 }).span 0 = some (7200, 18000) ∧
    ((14400 : Nat) : Int) + (-1) < (20 * 720 : Nat) ∧ ((20 * 720 : Nat) : Int) ≤ (14401 : Nat) + (-1) ∧
    (desk.modPageList 0 fun _ => [page8]).span 0 = some (53280, 97920) ∧
    ((desk.inClip true (.fixed 0)).chan 0).head = some { head1 with mode := .clip (context true (.fixed 0)) } ∧
    ((desk.inClip true (.fit 8 2880 1 7)).chan 0).head = some { head1 with mode := .clip (context true (.fit 8 2880 1 7)) } ∧
    ((desk.inClip true (.fixed 720)).modChan 0 fun ch => { ch with cues := [goodCue] }).chan 0 =
      { (desk.inClip true (.fixed 720)).chan 0 with cues := [goodCue] } := by decide +kernel

/-- A page opened after an open-end REMOVE was queued is not visited, and the page before it is (R55): the start is at 80,
the newest page at the queueing was page 7, and page 8 begins at 74. -/
theorem test_open_end_remove_after_a_supply :
    scanVisits [page7, page8] 1 (scanOf .remove .cover 80 none (some 10) none) 2
      { angle := 0, bound := some 10, progress := none } = [page7] := by decide +kernel

/-- The speed field takes the step of a carry at q = 2,880 (R113, R116). -/
theorem test_fit_carry_in_the_speed_field :
    (((desk.inClip true (.fit 8 2880 1 7)).advance 0).chan 0).head.map (·.speed) = some 2881 := by decide +kernel

/-! ### Hypotheses of the obligations, met: playback, cues, fetches -/

theorem test_met_LoadClipEntersClip :
    desk.hears 1 ∧ chanOf? (0 : Byte).toNat = none ∧ 512 < (513 : BitVec 16).toNat ∧ 8 < (9 : Byte).toNat ∧
    (chanOf? (1 : Byte).toNat = some 0 ∧ (512 : BitVec 16) ≠ 0 ∧ (512 : BitVec 16).toNat ≤ 512 ∧ (8 : Byte).toNat ≤ 8) ∧
    desk.claimRefusal 2 0 = some .notClaimed ∧ desk.drives 1 0 ∧ desk.inGang.isFollower 1 = true ∧
    desk.isFollower 0 = false ∧ desk.findClip 1 10 = none ∧
    desk.findClip (1 : BitVec 16).toNat (9 : BitVec 16).toNat = some clip1 ∧ clip1.state = .closed ∧
    desk.findClip 2 10 = some clip2 ∧ ¬ (clip2.state = .closed ∨ clip2.state = .closing) ∧
    (angleOf? (8 : Byte).toNat).getD clip1.hero ∉ clip1.angles ∧ (angleOf? (0 : Byte).toNat).getD clip1.hero ∈ clip1.angles ∧
    (desk.record fun r => { r with liveEdge := none }).span 0 = none ∧ desk.span 0 = some (7200, 97920) ∧
    (30 + 1 - 20) * 720 / max 1 (3 : BitVec 16).toNat ≤ 2880 ∧ 2880 < (30 + 1 - 20) * 720 / max 1 (2 : BitVec 16).toNat := by
  decide +kernel

theorem test_met_FitReachesTheBoundaryAtTheDthAdvance :
    (1 ≤ 23040 ∧ 1 ≤ 8 ∧ 23040 / 8 ≤ 2880 ∧ 7 < 8 ∧ 23040 % 8 = 0) ∧ (1 ≤ 720 ∧ 720 / 1000 < 2880) ∧
      (23041 / 8 = 2880 ∧ 23041 % 8 ≠ 0) ∧ (6 + 1 < 8 ∧ 8 ≤ 7 + 1) := by decide

theorem test_met_CuesAreQueuedAndTaken :
    (desk.hears 1 ∧ chanOf? (1 : Byte).toNat = some 0 ∧ desk.drives 1 0) ∧
    (512 < (513 : BitVec 16).toNat ∧ (512 : BitVec 16).toNat ≤ 512 ∧ 8 < (9 : Byte).toNat) ∧
    (chanOf? (0 : Byte).toNat = none ∧ (512 : BitVec 16) ≠ 0 ∧ (8 : Byte).toNat ≤ 8 ∧ desk.hears 2 ∧
      desk.holder 0 ≠ some 2 ∧ desk.hears 0 ∧ desk.holder 0 ≠ none ∧ desk.holder 0 ≠ some 0) ∧
    12 ≤ ((desk.modChan 0 fun ch => { ch with cues := List.replicate 12 goodCue }).chan 0).cues.length ∧
    ((desk.modChan 0 fun ch => { ch with cues := List.replicate 11 goodCue }).chan 0).cues.length < 12 ∧
    (desk.inGang.hears 1 ∧ desk.inGang.drives 1 1 ∧ desk.inGang.isFollower 1 = true) ∧ desk.isFollower 0 = false ∧
    ((desk.inClip true (.fixed 1)).chan 0).head = some { head1 with mode := .clip (context true (.fixed 1)) } ∧
    (desk.chan 0).cues = [] ∧
    (let s := desk.modChan 0 fun ch => { ch with cues := [badCue, goodCue] }
     (s.chan 0).cues = [badCue] ++ goodCue :: [] ∧ s.findClip badCue.clipId badCue.serial = none ∧
       s.findClip goodCue.clipId goodCue.serial = some clip1 ∧ goodCue.angle.getD clip1.hero ∈ clip1.angles ∧
       s.span (goodCue.angle.getD clip1.hero) ≠ none) ∧
    (desk.span 0 = some (7200, 97920) ∧ 7200 ≤ 97920 ∧ (30 + 1 - 20) * 720 / 3 ≤ 2880 ∧ 2880 < (30 + 1 - 20) * 720 / 2) := by
  decide +kernel

theorem test_met_SelectionShowsAGoodFrame :
    0 < 720 ∧ lowerPage [page7, page8] ((73 * 720 + 45) / 720) = some page7 ∧ 0 < page7.count ∧
      (selectFrames [page7, page8] (some 136) true (73 * 720 + 45) 720 =
        some { placeA := { page := 7, index := 63 }, placeB := some { page := 8, index := 0 }, weight := 1 }) ∧
      selectFrames [{ page7 with faulted := [0] }] (some 73) true (10 * 720) 720 = none ∧
      (selectFrames [{ page7 with faulted := [63] }] (some 73) true (80 * 720 + 719) 720 =
        some { placeA := { page := 7, index := 62 }, placeB := none, weight := 0 }) ∧
      (73 * 720 + 45) % 720 * 16 / 720 = 1 ∧ 63 ∉ page7.faulted ∧
      lookup [page7, page8] 74 = .held page8 0 512 false (some page7) ∧ 74 ≤ 136 := by decide +kernel

/-- An entry of fetches in flight. -/
def entry (tag : Nat) (black superseded : Bool) : FetchEntry :=
  { tag := tag, black := black, pageA := if black then none else some 7, pageB := none, superseded := superseded }

/-- Channel 1 with fetches in flight. -/
def desk.fetching (entries : List FetchEntry) (next : Nat) : State :=
  desk.modChan 0 fun ch => { ch with inFlight := entries, nextTag := next }

theorem test_met_RequestsTakeATagAndHolds :
    (desk.chan 0).head = some head1 ∧ 2 ≤ ((desk.fetching [entry 3 true false, entry 4 true false] 5).chan 0).inFlight.length ∧
      ((desk.modChan 0 fun ch => { ch with black := true }).chan 0).black = true ∧ (desk.chan 0).black = false ∧
      (desk.modPageList 0 fun _ => [page8]).selectFor 0 head1 = none ∧
      desk.selectFor 0 head1 = some { placeA := { page := 7, index := 10 }, placeB := none, weight := 0 } ∧
      (let ch := (desk.fetching [entry 255 true false] 255).chan 0
       ch.inFlight.length < 2 ∧ (∃ e ∈ ch.inFlight, e.tag = ch.nextTag) ∧ 0 = (ch.nextTag + 1) % 256) ∧
      (let ch := (desk.fetching [entry 3 true false] 4).chan 0
       ch.inFlight.length < 2 ∧ ∀ e ∈ ch.inFlight, e.tag ≠ ch.nextTag) := by decide +kernel

theorem test_met_FetchCompletionsAreMatchedByTag :
    desk.resetHeld = false ∧ chanOf? (5 : BitVec 3).toNat = none ∧ chanOf? (1 : BitVec 3).toNat = some 0 ∧
      (∀ e ∈ (desk.chan 0).inFlight, e.tag ≠ (0 : BitVec 8).toNat) ∧
      ((desk.fetching [entry 254 false false, entry 255 false false] 0).chan 0).inFlight =
        [entry 254 false false] ++ entry 255 false false :: [] ∧
      (255 : Nat) = (255 : BitVec 8).toNat ∧ (∀ o ∈ [entry 254 false false], o.tag ≠ (255 : BitVec 8).toNat) ∧
      (entry 255 false false).superseded = false ∧ (entry 255 false true).superseded = true ∧
      (entry 255 true false).black = true ∧ (3 : BitVec 2) ≠ 0 := by decide +kernel

/-! ### Hypotheses of the obligations, met: claims, routes, links -/

theorem test_met_SelectMovesTheLeverTarget :
    (desk.hears 1 ∧ chanOf? (1 : Byte).toNat = some 0 ∧ desk.drives 1 0) ∧
      (let s := desk.inMode .shuttle 720
       s.hears 1 ∧ s.leverTarget 1 = some 0 ∧ (none : Option Chan).map s.leaderOf ≠ some 0 ∧
         (s.chan 0).head = some { head1 with mode := .shuttle, speed := 720 } ∧ s.isFollower 0 = false) ∧
      desk.leverTarget 1 = some 0 ∧ (desk.chan 0).head = some head1 ∧ head1.mode ≠ .shuttle := by decide +kernel

theorem test_met_ClaimsArePlacedAndCancelled :
    (desk.hears 1 ∧ chanOf? (1 : Byte).toNat = some 0 ∧ desk.holder 0 = some 1) ∧
      (desk.hears 4 ∧ chanOf? (4 : Byte).toNat = some 3 ∧ desk.holder 3 ≠ some 4) ∧ chanOf? (5 : Byte).toNat = none ∧
      ((desk.setPendingClaim 2 (some { channel := 0, age := 49 })).pendingClaim 2 = some { channel := 0, age := 49 } ∧
        (desk.link 2).state ≠ .off) ∧
      (desk.pendingClaim 2 = none ∧ (desk.link 2).listing = .stopped) ∧
      ((desk.modLink 2 fun l => { l with listing := .running .all 513 }).link 2).listing ≠ .stopped := by decide +kernel

theorem test_met_ReleasesStartACoolDown :
    (chanOf? (1 : Byte).toNat = some 0 ∧ desk.hears 1 ∧ desk.holder 0 = some 1) ∧ desk.hears 0 ∧
      (chanOf? (4 : Byte).toNat = some 3 ∧ desk.holder 3 = none) ∧ chanOf? (5 : Byte).toNat = none := by decide +kernel

theorem test_met_RoutesAreCutPreviewedAndTaken :
    desk.hears 1 ∧ desk.hears 0 ∧ chanOf? (4 : Byte).toNat = some 3 ∧ chanOf? (5 : Byte).toNat = none ∧
      desk.holder 3 ≠ some 1 ∧ desk.holder 0 = some 1 ∧ desk.arbiter.pgm = 0 ∧ desk.arbiter.pvw = 1 ∧
      (desk.setHolder 1 (some 1)).holder (desk.setHolder 1 (some 1)).arbiter.pvw = some 1 ∧
      desk.holder desk.arbiter.pvw ≠ some 1 := by decide +kernel

theorem test_met_GrantsGoToTheLowestStation :
    desk.holder 0 ≠ none ∧ (desk.holder 3 = none ∧ ∀ k, desk.pendingClaim k = none) ∧
      (let s := (desk.setPendingClaim 4 (some { channel := 3, age := 0 })).setPendingClaim 2 (some { channel := 3, age := 49 })
       s.holder 3 = none ∧ s.pendingClaim 2 = some { channel := 3, age := 49 } ∧ s.coolDownRun 2 3 = none ∧
         ∀ j, j < 2 → s.pendingClaim j = none) := by decide +kernel

theorem test_met_LossPausesAndGraceReleases :
    (let s := desk.modLink 1 fun l => { l with lossCount := 7 }
     s.resetHeld = false ∧ (s.link 1).state = .up ∧ (s.link 1).lossCount = 7 ∧ s.holder 0 = some 1 ∧
       s.isFollower 0 = false ∧ (∀ d, 0 ∉ s.followersOf d) ∧ (s.chan 0).head = some head1) ∧
    (let s := desk.modLink 1 fun l => { l with state := .lost, graceCount := 299 }
     s.resetHeld = false ∧ (s.link 1).state = .lost ∧ (s.link 1).graceCount = 299) ∧
    (desk.openClip 1 = none ∧ desk.openClip 2 = some clip2 ∧ clip2.inMark ≤ desk.timeBase.houseCount - 1) ∧
    (let s := fun n : Nat => { desk.openScans n with timeBase := { desk.timeBase with houseCount := 100 } }
     (s 0).openClip 2 = some clip2 ∧ (s 1).openClip 2 = some { clip2 with scansPending := 1 } ∧
       (s 1).timeBase.houseCount - 1 < clip2.inMark) := by decide +kernel

theorem test_met_ListingsWalkTheClipTable :
    desk.hears 1 ∧ Filter.tag 1 ≠ .tag 0 ∧ (desk.link 1).listing = .stopped ∧
      ((desk.modLink 1 fun l => { l with listing := .running .own 513, listingHold := true }).link 1).listingHold = true ∧
      (let s := desk.modLink 1 fun l => { l with listing := .running .all 2 }
       (s.link 1).listing = .running .all 2 ∧ (s.link 1).listingHold = false ∧
         s.clips.clips.Pairwise (fun c d => c.id < d.id) ∧ clip2 ∈ s.clips.clips ∧ 2 ≤ clip2.id ∧
         ∀ d ∈ s.clips.clips, 2 ≤ d.id → clip2.id ≤ d.id) ∧
      ∀ c ∈ desk.clips.clips, ¬ 3 ≤ c.id := by decide +kernel

theorem test_met_LinkSetEnablesAndDisables :
    desk.hears 0 ∧ (5 ≤ (5 : Byte).toNat ∧ 16 < (17 : Byte).toNat) ∧
      ((4 : Byte).toNat = (4 : Station).val ∧ 1 ≤ (16 : Byte).toNat ∧ (16 : Byte).toNat ≤ 16) ∧
      ((desk.link 4).enabled = true ∧ (4 : Station) ≠ 0) ∧
      (let s := desk.modLink 4 fun l => { l with enabled := false, state := .off }
       s.hears 0 ∧ (s.link 4).enabled = false ∧ (s.link 4).state = .off) := by decide +kernel

/-- A desk frame without a command. -/
def plainFrame : DeskFrame :=
  { lever := 0, jog := 0, keys := 0, listingHold := false, toggle := false, command := none }

theorem plainFrame_fits : plainFrame.fits := nofun

/-- Length 4, one too short, is a format fault. -/
theorem test_met_FramesAreAcceptedOrOnlyCounted :
    (desk.resetHeld = false ∧ (desk.link 1).state ≠ .off ∧ (desk.link 1).rx = []) ∧ plainFrame.fits ∧
    ((desk.modLink 1 fun l => { l with enabled := false, state := .off }).link 1).state = .off ∧
    (beginsFrame { value := 165, framingError := false } = true ∧ (∀ x ∈ cleanBytes [4], beginsFrame x = false) ∧
      judgeFrame 1 (cleanBytes [4]) = .rejected .format) ∧
    (judgeFrame 1 (cleanBytes [5]) = .incomplete ∧ (∀ x ∈ cleanBytes [5], beginsFrame x = false) ∧
      ((desk.modLink 1 fun l => { l with rx := cleanBytes [165, 5] }).link 1).rx =
        { value := 165, framingError := false } :: cleanBytes [5]) :=
  ⟨by decide +kernel, plainFrame_fits, by decide +kernel, by decide +kernel, by decide +kernel⟩

theorem test_met_AcceptedFramesJudgeLeverAndKeys :
    3 < (4 : Int).natAbs ∧ (-3 : Int).natAbs ≤ 3 ∧
      ((judgeLever false 1 4).2.2 = .engages ∧ (judgeLever true 1 (-3)).2.2 = .disengages ∧
        (judgeLever true 0 (-3)).2.2 = .neither) ∧
      (desk.leverTarget 0 = none ∧ desk.leverTarget 1 = some 0 ∧ desk.isFollower 0 = false) ∧
      (let s := desk.modLink 2 fun l => { l with selected := some 1 }
       s.leverTarget 2 = some 1 ∧ (s.chan 1).head = none) ∧
      ((desk.chan 0).head = some head1 ∧ head1.mode = .paused ∧ head1.mode ≠ .shuttle) ∧
      (let s := fun armed : Bool => desk.modLink 1 fun l => { l with confirmRun := 1, armed := armed }
       ((s true).link 1).engaged = false ∧ ((s true).link 1).confirmRun = 1 ∧ ((s true).link 1).armed = true ∧
         ((s false).link 1).armed = false ∧ (s false).leverTarget 1 = some 0) ∧
      (let s := (desk.inClip true (.fixed 1)).modLink 1 fun l => { l with confirmRun := 1 }
       (s.chan 0).head = some { head1 with mode := .clip (context true (.fixed 1)) } ∧ s.leverTarget 1 = some 0) ∧
      (let s := (desk.inMode .shuttle 7).modLink 1 fun l => { l with engaged := true, confirmRun := 1 }
       s.leverTarget 1 = some 0 ∧ (s.link 1).engaged = true ∧ (s.link 1).confirmRun = 1 ∧
         (s.chan 0).head = some { head1 with mode := .shuttle, speed := 7 }) := by decide +kernel

/-- Station 1's lever target is channel 1 and station 0 has none; station 2 selects channel 2, which stands in IDLE. -/
theorem test_met_DeskFramesActInTheirOrder :
    (0 : Int) = 0 ∧ ((-64 : Int) ≠ 0 ∧ desk.leverTarget 0 = none) ∧
    (desk.leverTarget 1 = some 0 ∧ (desk.chan 0).head = some head1) ∧
    (let s := desk.modLink 2 fun l => { l with selected := some 1 }
     s.leverTarget 2 = some 1 ∧ (s.chan 1).head = none) ∧
    ((desk.modLink 1 fun l => { l with engaged := true }).link 1).engaged = true ∧
    ((desk.link 1).engaged = false ∧ head1.mode ≠ .follow ∧ desk.span head1.angle = some (7200, 97920) ∧ 7200 ≤ 97920) := by
  decide +kernel

theorem test_met_KeysActOrRaiseKeyIgnored :
    ((desk.openClip 1 = none ∧ desk.freeId = some 3) ∧ (desk.openClip 2 = some clip2 ∧ clip2.scansPending = 0)) ∧
    (fullTable.openClip 1 = none ∧ fullTable.freeId = none) ∧
    ((desk.openScans 1).openClip 2 = some { clip2 with scansPending := 1 } ∧ desk.hears 1) ∧
    (desk.leverTarget 0 = none ∧ desk.leverTarget 1 = some 0 ∧
      (let s := desk.modLink 2 fun l => { l with selected := some 1 }
       s.leverTarget 2 = some 1 ∧ (s.chan 1).head = none)) ∧
    ((desk.chan 0).head = some head1 ∧ (∀ ctx, head1.mode ≠ .clip ctx) ∧ head1.mode = .paused) ∧
    ((desk.inMode .live 720).chan 0).head = some { head1 with mode := .live, speed := 720 } ∧
    (((desk.inClip true (.fixed 1)).chan 0).head = some { head1 with mode := .clip (context true (.fixed 1)) } ∧
      ((desk.inClip false (.fixed 1)).chan 0).head = some { head1 with mode := .clip (context false (.fixed 1)) }) ∧
    ((desk.chan 0).cues = [] ∧ ((desk.modChan 0 fun ch => { ch with cues := [goodCue] }).chan 0).cues ≠ []) ∧
    ((desk.setHolder 1 (some 1)).holder (desk.setHolder 1 (some 1)).arbiter.pvw = some 1 ∧
      desk.holder desk.arbiter.pvw ≠ some 1) ∧
    ((desk.link 0).selected = none ∧ (desk.link 1).selected = some 0) ∧
    (∀ b : Angle, b ≠ 0 → desk.span b = none) ∧
    ((desk.onTwo desk).span 1 = some (36000, 64800) ∧ 36000 ≤ 64800 ∧ (1 : Angle) ≠ head1.angle ∧
      (desk.onTwo desk).isFollower 0 = false ∧ ∀ b : Angle, b ≠ 0 → b ≠ 1 → (desk.onTwo desk).span b = none) ∧
    (let s := (desk.onTwo desk.inGang).modLink 1 fun l => { l with selected := some 2 }
     (s.link 1).selected = some 2 ∧ (s.chan 2).gang = .follower 0 ∧ (s.chan 2).head = some head1 ∧
       (s.chan 0).head = some head1 ∧ s.span 1 = some (36000, 64800)) :=
  ⟨by decide +kernel, ⟨by decide +kernel, fullTable_freeId⟩, by decide +kernel, by decide +kernel,
    ⟨by decide, head1_no_clip, rfl⟩, by decide +kernel, by decide +kernel, by decide +kernel, by decide +kernel,
    by decide +kernel, by decide +kernel, by decide +kernel, by decide +kernel⟩

theorem test_met_NewTogglesStartTheirCommand :
    (desk.link 2).toggleSynced = false ∧ ((desk.link 1).toggleSynced = true ∧ false = (desk.link 1).toggleSeen) ∧
      true ≠ (desk.link 1).toggleSeen ∧ CommandKind.ofCode? (54 : Byte).toNat = some .take ∧
      decodeMessage 1 0 [] .take [] = .row (.take 1) ∧ CommandKind.ofCode? (89 : Byte).toNat = none ∧
      desk.pendingClaim 1 = none ∧ (Instr.take 1).sender ≠ none ∧ desk.clips.raised = false ∧
      (desk.setPendingClaim 1 (some { channel := 3, age := 0 })).pendingClaim 1 ≠ none ∧ (desk.link 1).state ≠ .off ∧
      (decodeMessage 1 0 [] .take [0] = .unfit ∧ CommandKind.take ≠ .cancel ∧ CommandKind.take.isReserved = false) ∧
      decodeMessage 1 0 [] .cancel [0] = .unfit ∧
      (decodeMessage 0 0 [] .restart [0] = .unfit ∧ CommandKind.restart.isReserved = true ∧ (1 : Station) ≠ 0) ∧
      (CommandKind.ofCode? (87 : Byte).toNat = some .stats ∧ decodeMessage 1 0 [] .stats [6, 0, 0] = .unknownBlock) ∧
      2 < (3 : Byte).toNat ∧ (∀ x ∈ [5 + ((4 : Byte).toNat * 7 + 7) / 8], [0, 5, 0, 9, 4, 0].length ≠ x) := by decide +kernel

/-- A LABEL of 26 characters, a GANG of no and of four followers, a CURVE_SET of ten points. -/
theorem test_met_CommandsAreCheckedAtTheirStart :
    (25 < (List.replicate 26 (65 : BitVec 7)).length ∧ ([] : List Byte) = [] ∧ 3 < [(2 : Byte), 3, 4, 2].length ∧
      (List.replicate 10 (0 : BitVec 16)).length ≠ 11) ∧
    (Instr.pause 1 1).sender = some 1 ∧ desk.resetHeld = false ∧ desk.clips.raised = false ∧
      ((desk.modLink 1 fun l => { l with state := .off }).link 1).state = .off ∧ (desk.link 1).state ≠ .off ∧
      encodeMessage (.pause 1 1) = some (.pause, [1]) ∧
      (desk.setPendingClaim 1 (some { channel := 3, age := 0 })).pendingClaim 1 ≠ none ∧ CommandKind.pause ≠ .cancel ∧
      desk.pendingClaim 1 = none ∧ encodeMessage (.restart 1) = some (.restart, []) ∧
      Instr.onChannel? (.pause 1 5) = some 5 ∧ chanOf? (5 : Byte).toNat = none ∧ chanOf? (4 : Byte).toNat = some 3 ∧
      desk.holder 3 ≠ some 1 ∧ (desk.holder 0 ≠ none ∧ desk.holder 0 ≠ some 0) := by decide +kernel

theorem test_met_ReportsAreSentOrSkipped :
    ((desk.modLink 1 fun l => { l with state := .off }).link 1).state = .off ∧ (desk.link 1).state ≠ .off ∧
      (desk.link 1).tx = none ∧ ((after (.timerEvent []) desk).link 1).tx ≠ none := by decide +kernel

/-- Four summaries, a listing record and 20 bytes of result data are 149 bytes; 19 are 148. -/
theorem test_met_ReportsFitIn148Bytes :
    let s := fun n : Nat => { desk with
      arbiter := Arbiter.reset
      links := vmod desk.links 0 fun l => { l with ack := { l.ack with data := List.replicate n 0 } } }
    ((s 48).link 0).ack.data.length ≤ 48 ∧ ((s 20).buildReport 0 (.record clip1)).withheld = true ∧
      ((s 19).buildReport 0 (.record clip1)).withheld = false ∧ (∀ c, ListingItem.endMarker ≠ .record c) :=
  ⟨by decide +kernel, by decide +kernel, by decide +kernel, nofun⟩

/-! ### Hypotheses of the obligations, met: configuration, encodings, limits -/

theorem test_met_CurveAndSettingsAreTaken :
    desk.hears 0 ∧ (List.replicate 11 (0 : BitVec 16)).length = 11 ∧
      (∀ i, i < 11 → 0 ≤ ((List.replicate 11 (0 : BitVec 16)).getD i 0).toInt) ∧ (0x8000 : BitVec 16).toInt < 0 ∧
      5 ≤ (5 : Byte).toNat ∧ (4 : Byte).toNat = (4 : Station).val ∧ (1 : Byte) ≠ 0 := by decide +kernel

theorem test_met_StatsReadAndClearTheirCounts :
    desk.hears 0 ∧ angleOf? (8 : Byte).toNat = some 7 ∧ chanOf? (4 : Byte).toNat = some 3 ∧
      (4 : Byte).toNat = (4 : Station).val ∧ (1 : Byte) ≠ 0 ∧ 8 < (9 : Byte).toNat ∧ 4 < (5 : Byte).toNat := by decide +kernel

/-- Channel 1 plays the only clip that is in use: CLOSED, and RETIRING. -/
theorem test_met_RestartReturnsTheStationSide :
    desk.hears 0 ∧ (desk.link 0).enabled = true ∧ (4 : Station) ≠ 0 ∧
      (let on := fun (s : State) (clip : Clip) (c : Chan) => ((s.chan c).head.bind fun h => match h.mode with
          | .clip ctx => some (ctx.clipId, ctx.serial)
          | _ => none) == some (clip.id, clip.serial)
       let ready := fun s : State => s.hears 0 ∧ (s.clips.clips.map fun clip => (clip.id, clip.serial)).Nodup ∧
         ∀ clip ∈ s.clips.clips, clip.useCount = ([0, 1, 2, 3].filter (on s clip)).length
       let used := desk.using fun c => { c with useCount := 1 }
       let retiring := desk.using fun c => { c with useCount := 1, state := .retiring }
       (ready used ∧ ∀ clip ∈ used.clips.clips, clip.state ≠ .retiring) ∧
         ready retiring ∧ (∀ clip ∈ retiring.clips.clips, clip.state = .retiring → 0 < clip.useCount) ∧
         ∃ clip ∈ retiring.clips.clips, clip.state = .retiring ∧ clip.isProtected = false) := by decide +kernel

theorem test_met_MessagesReadBack :
    (Instr.label 4 512 65535 (List.replicate 25 127)).wf = true ∧
      (Instr.label 4 512 65535 (List.replicate 25 127)).sender = some 4 ∧
      (encodeMessage (.label 4 512 65535 (List.replicate 25 127))).isSome = true := by decide +kernel

theorem test_met_DeskFramesReadBack :
    ({ plainFrame with command := some (List.replicate 28 165) } : DeskFrame).fits ∧ (4 : Station) ≠ 3 :=
  ⟨fun m h => by cases h; decide, by decide⟩

/-- Two fetches in flight, twelve cues, links 1 disabled. -/
def limits : State :=
  { desk with
    channels := vmod desk.channels 3 fun ch =>
      { ch with inFlight := [entry 255 true false, entry 0 true false], nextTag := 255, cues := List.replicate 12 goodCue }
    links := vmod desk.links 1 fun l => { l with state := .off, enabled := false }
    pending := [.scanVisit] }

theorem test_met_LimitsAreKeptByEveryStep :
    limits.InRange ∧ step limits = .next (after .scanVisit { limits with pending := [] }) := by
  refine ⟨⟨by decide, by decide, by decide, fun c => ?_, ⟨by decide, by decide, by decide⟩, rfl⟩, rfl⟩
  refine ⟨?_, ?_, ?_, ?_, ?_⟩ <;> revert c <;> decide +kernel

end Sys2Proof.Tests
end

