-- ==== Sys2Proof/Proofs/StampResolution.lean ====
section
/-! PROOFS. Proofs/StampResolution.lean: the resolution of a notice's stamp, and what the judgement of the notice makes of
it (R18 to R21). -/

namespace Sys2Proof.Machine

/-! ### The three cases of R19 -/

theorem resolveStamp_of_le {count stamp : Nat} (h : stamp ≤ count % 65536) :
    resolveStamp count stamp = some (count - count % 65536 + stamp) := if_pos h

theorem resolveStamp_of_lt_of_wrapped {count stamp : Nat} (h : count % 65536 < stamp) (hc : 65536 ≤ count) :
    resolveStamp count stamp = some (count - count % 65536 - 65536 + stamp) := by
  simp [resolveStamp, Nat.not_le.mpr h, hc]

theorem resolveStamp_of_lt_of_unwrapped {count stamp : Nat} (h : count % 65536 < stamp) (hc : count < 65536) :
    resolveStamp count stamp = none := by
  simp [resolveStamp, Nat.not_le.mpr h, Nat.not_le.mpr hc]

/-! ### The greatest house frame of a stamp -/

/-- The house frames up to a house count that carry a stamp in their low 16 bits (R19). -/
def framesOfStamp (count stamp : Nat) : Set Nat := {u | u ≤ count ∧ u % 65536 = stamp}

theorem mem_framesOfStamp {count stamp u : Nat} : u ∈ framesOfStamp count stamp ↔ u ≤ count ∧ u % 65536 = stamp := Iff.rfl

/-- The stamp lies in the count's own run of 65,536 house frames, or in the run before it. -/
theorem isGreatest_of_resolveStamp {count stamp t : Nat} (hs : stamp < 65536) (ht : resolveStamp count stamp = some t) :
    IsGreatest (framesOfStamp count stamp) t := by
  rcases Nat.lt_or_ge (count % 65536) stamp with h | h
  · rcases Nat.lt_or_ge count 65536 with hc | hc
    · simp [resolveStamp_of_lt_of_unwrapped h hc] at ht
    · rw [resolveStamp_of_lt_of_wrapped h hc, Option.some.injEq] at ht
      refine ⟨mem_framesOfStamp.mpr (by omega), fun u hu => ?_⟩
      obtain ⟨hu, hlow⟩ := mem_framesOfStamp.mp hu
      omega
  · rw [resolveStamp_of_le h, Option.some.injEq] at ht
    refine ⟨mem_framesOfStamp.mpr (by omega), fun u hu => ?_⟩
    obtain ⟨hu, hlow⟩ := mem_framesOfStamp.mp hu
    omega

/-- In the one case without a resolution, the count is too small for any house frame to carry the stamp. -/
theorem exists_resolveStamp_of_mem {count stamp u : Nat} (hu : u ∈ framesOfStamp count stamp) :
    ∃ t, resolveStamp count stamp = some t := by
  obtain ⟨hu, hlow⟩ := mem_framesOfStamp.mp hu
  rcases Nat.lt_or_ge (count % 65536) stamp with h | h
  · have hc : 65536 ≤ count := by omega
    exact ⟨_, resolveStamp_of_lt_of_wrapped h hc⟩
  · exact ⟨_, resolveStamp_of_le h⟩

theorem resolveStamp_eq_some_iff {count stamp t : Nat} (hs : stamp < 65536) :
    resolveStamp count stamp = some t ↔ IsGreatest (framesOfStamp count stamp) t := by
  refine ⟨isGreatest_of_resolveStamp hs, fun ht => ?_⟩
  obtain ⟨t', ht'⟩ := exists_resolveStamp_of_mem ht.1
  rw [ht', (isGreatest_of_resolveStamp hs ht').unique ht]

theorem isGreatest_framesOfStamp_iff {count stamp t : Nat} :
    IsGreatest (framesOfStamp count stamp) t ↔
      t ≤ count ∧ t % 65536 = stamp ∧ ∀ u, u ≤ count → u % 65536 = stamp → u ≤ t := by
  simp only [IsGreatest, mem_upperBounds, mem_framesOfStamp, and_imp, and_assoc]

/-! ### The judgement of a notice -/

theorem judgeNotice_of_rateMultiple_le {s : State} {a : Angle} {stamp phase : Nat}
    (h : (s.recorder a).rateMultiple ≤ phase) : s.judgeNotice a stamp phase = .error .format := if_pos h

theorem judgeNotice_of_unresolved {s : State} {a : Angle} {stamp : Nat} (phase : Nat)
    (h : resolveStamp s.timeBase.houseCount stamp = none) : s.judgeNotice a stamp phase = .error .format := by
  simp [State.judgeNotice, h]

/-- A notice passes exactly when none of the checks 1 to 5 fails, and its frame number is then t × m + phase. -/
theorem judgeNotice_eq_ok_iff {s : State} {a : Angle} {stamp phase n : Nat} :
    s.judgeNotice a stamp phase = .ok n ↔
      phase < (s.recorder a).rateMultiple ∧
        ∃ t, resolveStamp s.timeBase.houseCount stamp = some t ∧ (s.recorder a).state = .recording ∧
          n = t * (s.recorder a).rateMultiple + phase ∧ (s.recorder a).newest.any (n ≤ ·) = false ∧
          (s.recorder a).pendingWrites.length < 2 := by
  rcases Nat.lt_or_ge phase (s.recorder a).rateMultiple with hp | hp
  · cases ht : resolveStamp s.timeBase.houseCount stamp with
    | none => simp [judgeNotice_of_unresolved phase ht]
    | some t =>
      simp only [State.judgeNotice, ht, if_neg (Nat.not_le.mpr hp)]
      split
      · next hrec => simp [hrec]
      · next hrec =>
        split
        · next hstale =>
          refine iff_of_false nofun ?_
          rintro ⟨-, _, ⟨⟩, -, rfl, hfresh, -⟩
          exact absurd hstale (by simp [hfresh])
        · next hfresh =>
          split
          · next hfull => simp [Nat.not_lt.mpr hfull]
          · next hroom =>
            constructor
            · rintro ⟨⟩
              exact ⟨hp, t, rfl, not_not.mp hrec, rfl, Bool.eq_false_iff.mpr hfresh, Nat.not_le.mp hroom⟩
            · rintro ⟨-, _, ⟨⟩, -, rfl, -, -⟩
              rfl
  · simp [judgeNotice_of_rateMultiple_le hp, Nat.not_lt.mpr hp]

/-- Settles O7: the three cases of R19 are those of `resolveStamp`, which finds the greatest frame of the stamp. -/
theorem stampResolvesToTheGreatestFrame : Obligations.StampResolvesToTheGreatestFrame := by
  refine ⟨fun s a stamp phase => ⟨fun hp => ?_, judgeNotice_of_unresolved phase, fun n hn => ?_⟩,
    fun count stamp hs => ⟨resolveStamp_of_le, resolveStamp_of_lt_of_wrapped, resolveStamp_of_lt_of_unwrapped,
      fun t => ?_⟩⟩
  · exact judgeNotice_of_rateMultiple_le (Nat.not_lt.mp hp)
  · obtain ⟨-, t, ht, -, hn, -, -⟩ := judgeNotice_eq_ok_iff.mp hn
    exact ⟨t, ht, hn⟩
  · rw [resolveStamp_eq_some_iff hs, isGreatest_framesOfStamp_iff]

end Sys2Proof.Machine
end

section
/-! PROOFS. Proofs/LeverCurve.lean: the lever speed of a lever value as a point of a segment of the lever curve (R90). -/

namespace Sys2Proof.Machine

/-! ### A segment of the lever curve -/

/-- The segment of the lever curve in which a magnitude up to 100 lies; the last one holds its end point too (R90). -/
def InSegment (m : Nat) (k : Fin 10) : Prop := k.val = m / 10 ∨ m = 100 ∧ k.val = 9

/-- The curve's value at a magnitude of segment `k`, between the two points of the segment (R90). -/
def segmentSpeed (curve : Vector Nat 11) (k : Fin 10) (m : Nat) : Nat :=
  curve.get k.castSucc + (curve.get k.succ - curve.get k.castSucc) * (m - 10 * k.val) / 10

theorem InSegment.offset_le {m : Nat} {k : Fin 10} (h : InSegment m k) : m - 10 * k.val ≤ 10 := by
  rcases h with h | ⟨rfl, h⟩ <;> omega

theorem exists_inSegment {m : Nat} (h : m ≤ 100) : ∃ k, InSegment m k := by
  rcases Nat.lt_or_eq_of_le h with hlt | rfl
  · exact ⟨⟨m / 10, by omega⟩, .inl rfl⟩
  · exact ⟨9, .inr ⟨rfl, rfl⟩⟩

/-- The interpolation adds at most the segment's whole rise, so it does not pass the segment's upper point. -/
theorem segmentSpeed_le {curve : Vector Nat 11} {k : Fin 10} {m : Nat} (hk : InSegment m k)
    (hrise : curve.get k.castSucc ≤ curve.get k.succ) : segmentSpeed curve k m ≤ curve.get k.succ := by
  have hpart : (curve.get k.succ - curve.get k.castSucc) * (m - 10 * k.val) / 10 ≤
      curve.get k.succ - curve.get k.castSucc :=
    Nat.div_le_of_le_mul ((Nat.mul_le_mul_left _ hk.offset_le).trans_eq (Nat.mul_comm _ _))
  unfold segmentSpeed
  omega

theorem segmentSpeed_end {curve : Vector Nat 11} {k : Fin 10} (hrise : curve.get k.castSucc ≤ curve.get k.succ) :
    segmentSpeed curve k (10 * k.val + 10) = curve.get k.succ := by
  simp [segmentSpeed, hrise]

/-! ### The lever speed -/

theorem leverSpeed_of_deadband (curve : Vector Nat 11) {x : Int} (h : x.natAbs ≤ 3) : leverSpeed curve x = 0 := if_pos h

theorem getD_toList_eq_get {n : Nat} (v : Vector Nat n) (i : Fin n) : v.toList.getD i.val 0 = v.get i := by
  simp [Vector.get_eq_getElem]

/-- Outside the deadband the segment the model picks is the one that holds the magnitude. -/
theorem leverSpeed_of_inSegment (curve : Vector Nat 11) {x : Int} {k : Fin 10} (hout : 3 < x.natAbs)
    (hk : InSegment x.natAbs k) : leverSpeed curve x = x.sign * (segmentSpeed curve k x.natAbs : Int) := by
  have hpick : (if 100 ≤ x.natAbs then 9 else x.natAbs / 10) = k.val := by
    rcases hk with hk | ⟨hfull, hk⟩
    · rw [if_neg (by omega), hk]
    · rw [if_pos hfull.ge, hk]
  have hlo : curve.toList.getD k.val 0 = curve.get k.castSucc := getD_toList_eq_get curve k.castSucc
  have hhi : curve.toList.getD (k.val + 1) 0 = curve.get k.succ := getD_toList_eq_get curve k.succ
  simp only [leverSpeed, if_neg (Nat.not_le.mpr hout), hpick, hlo, hhi, segmentSpeed]

/-- The sign of the lever value does not enlarge a speed. -/
theorem sign_mul_mem_bounds (x : Int) {n b : Nat} (h : n ≤ b) : -(b : Int) ≤ x.sign * n ∧ x.sign * n ≤ b := by
  rcases Int.sign_trichotomy x with hx | hx | hx <;> rw [hx] <;> omega

theorem leverSpeed_mem_bounds {curve : Vector Nat 11} {x : Int} {b : Nat} (hx : x.natAbs ≤ 100)
    (hrise : ∀ i : Fin 10, curve.get i.castSucc ≤ curve.get i.succ) (hb : ∀ i : Fin 11, curve.get i ≤ b) :
    -(b : Int) ≤ leverSpeed curve x ∧ leverSpeed curve x ≤ b := by
  rcases Nat.lt_or_ge 3 x.natAbs with hout | hdead
  · obtain ⟨k, hk⟩ := exists_inSegment hx
    rw [leverSpeed_of_inSegment curve hout hk]
    exact sign_mul_mem_bounds x ((segmentSpeed_le hk (hrise k)).trans (hb k.succ))
  · rw [leverSpeed_of_deadband curve hdead]
    omega

/-- Settles O30: a lever value out of the deadband lies in one segment of the curve, which gives the formula of R90, and
the segment's points bound it. -/
theorem leverSpeedInterpolatesTheCurve : Obligations.LeverSpeedInterpolatesTheCurve := by
  refine ⟨fun curve x hlo hhi => ⟨leverSpeed_of_deadband curve, fun k hout hk _ => leverSpeed_of_inSegment curve hout hk,
    ?_, leverSpeed_mem_bounds (by omega)⟩, by decide⟩
  rintro rfl hrise
  have hlast : InSegment (100 : Int).natAbs 9 := .inr ⟨rfl, rfl⟩
  calc leverSpeed curve 100
      = (100 : Int).sign * (segmentSpeed curve 9 100 : Int) := leverSpeed_of_inSegment curve (by decide) hlast
    _ = segmentSpeed curve 9 100 := Int.one_mul _
    _ = curve.get 10 := congrArg Nat.cast (segmentSpeed_end hrise)

end Sys2Proof.Machine
end

section
/-! PROOFS. Proofs/ReportSize.lean: the parts of a report payload and their sizes, the place of the withheld bit and of
the data length in its fixed part, and what withholding the result data leaves of the report's 148 bytes (R185, R186). -/

namespace Sys2Proof.Machine

/-! ### Sizes of the parts of a report -/

@[simp] theorem length_beBytes (n x : Nat) : (beBytes n x).length = n := by simp [beBytes]

theorem ChannelSummary.length_bytes (m : ChannelSummary) : m.bytes.length = 13 := by
  unfold ChannelSummary.bytes
  split <;> simp [signedBytes]

theorem Clip.length_bytes (c : Clip) : c.bytes.length = 48 := by simp [Clip.bytes]

/-- A link frame adds the start byte, the length, the station number and the two bytes of the CRC to its payload. -/
theorem length_linkFrame (k : Station) (payload : List Byte) : (linkFrame k payload).length = payload.length + 5 := by
  simp [linkFrame, bytes16]

/-- The bytes of a report that carry its listing (11.1). -/
def ListingItem.bytes : ListingItem → List Byte
  | .record c => c.bytes
  | _ => []

/-- The size of `ListingItem.bytes`, as the sum of R186 counts it. -/
def ListingItem.size : ListingItem → Nat
  | .record _ => 48
  | _ => 0

theorem ListingItem.length_bytes (item : ListingItem) : item.bytes.length = item.size := by
  cases item with
  | record c => exact c.length_bytes
  | none => rfl
  | endMarker => rfl

theorem ListingItem.size_le (item : ListingItem) : item.size ≤ 48 := by
  cases item <;> simp [ListingItem.size]

theorem ListingItem.size_of_ne_record {item : ListingItem} (h : ∀ c, item ≠ .record c) : item.size = 0 := by
  cases item with
  | record c => exact absurd rfl (h c)
  | none => rfl
  | endMarker => rfl

/-- The result data as a report carries them: none when they are withheld (R186). -/
def Report.carriedData (r : Report) : List Byte := if r.withheld then [] else r.ack.data

theorem Report.length_carriedData (r : Report) :
    r.carriedData.length = if r.withheld then 0 else r.ack.data.length := by
  unfold Report.carriedData
  split <;> rfl

theorem Report.carriedData_of_not_withheld {r : Report} (h : r.withheld = false) : r.carriedData = r.ack.data := by
  simp [Report.carriedData, h]

/-! ### The fixed part of a report -/

/-- Flags below bit 7 leave that bit to the withheld flag. -/
theorem getLsbD_seven_ofNat_add {x : Nat} (hx : x < 128) (b : Bool) :
    (BitVec.ofNat 8 (x + 128 * b.toNat)).getLsbD 7 = b := by
  rw [BitVec.getLsbD_ofNat, Nat.testBit_eq_decide_div_mod_eq]
  cases b <;> simp <;> omega

theorem ListingItem.code_le (item : ListingItem) : item.code ≤ 2 := by
  cases item <;> simp [ListingItem.code]

/-- A payload is its fixed part of 24 bytes, the result data carried, the summaries and the listing. Up to seven summaries
leave the withheld bit of byte 2 alone. -/
theorem Report.exists_payload_eq (r : Report) (hn : r.summaries.length ≤ 7) :
    ∃ fixed : List Byte, fixed.length = 24 ∧ (fixed[2]?.map fun b => b.getLsbD 7) = some r.withheld ∧
      fixed[17]? = some (BitVec.ofNat 8 r.ack.data.length) ∧
      r.payload = fixed ++ (r.carriedData ++ (r.summaries.flatMap ChannelSummary.bytes ++ r.listing.bytes)) := by
  have hcode := r.listing.code_le
  have hflags : (if r.ref = .locked then 1 else 0) + 4 * r.summaries.length + 32 * r.listing.code < 128 := by
    split <;> omega
  refine ⟨_, ?_, ?_, ?_, by rw [← List.append_assoc, ← List.append_assoc]; rfl⟩
  · simp
  · simpa [List.getElem?_append] using getLsbD_seven_ofNat_add hflags r.withheld
  · simp

theorem Report.length_payload (r : Report) (hn : r.summaries.length ≤ 7) :
    r.payload.length = 24 + r.carriedData.length + 13 * r.summaries.length + r.listing.size := by
  obtain ⟨fixed, hfixed, -, -, hpayload⟩ := r.exists_payload_eq hn
  have hsum : (r.summaries.flatMap ChannelSummary.bytes).length = 13 * r.summaries.length := by
    simp [List.length_flatMap, ChannelSummary.length_bytes, Nat.mul_comm]
  simp only [hpayload, List.length_append, hfixed, hsum, r.listing.length_bytes, Nat.add_assoc]

theorem Report.length_bytes (r : Report) : r.bytes.length = r.payload.length + 5 := length_linkFrame _ _

theorem Report.payload_withheld_bit (r : Report) (hn : r.summaries.length ≤ 7) :
    (r.payload[2]?.map fun b => b.getLsbD 7) = some r.withheld := by
  obtain ⟨fixed, hfixed, hbit, -, hpayload⟩ := r.exists_payload_eq hn
  rwa [hpayload, List.getElem?_append_left (by omega)]

theorem Report.payload_data_length (r : Report) (hn : r.summaries.length ≤ 7) :
    r.payload[17]? = some (BitVec.ofNat 8 r.ack.data.length) := by
  obtain ⟨fixed, hfixed, -, hlen, hpayload⟩ := r.exists_payload_eq hn
  rwa [hpayload, List.getElem?_append_left (by omega)]

/-- The result data carried follow the fixed part. -/
theorem Report.take_drop_payload (r : Report) (hn : r.summaries.length ≤ 7) :
    (r.payload.drop 24).take r.carriedData.length = r.carriedData := by
  obtain ⟨fixed, hfixed, -, -, hpayload⟩ := r.exists_payload_eq hn
  rw [hpayload, List.drop_left' hfixed, List.take_left]

/-! ### The report built -/

theorem State.length_summaries_buildReport_le (s : State) (k : Station) (item : ListingItem) :
    (s.buildReport k item).summaries.length ≤ 4 :=
  (List.length_map _).trans_le (List.length_filter_le _ allChans)

/-- The size of the report with its result data (R186). -/
def Report.fullSize (r : Report) : Nat :=
  29 + r.ack.data.length + 13 * r.summaries.length + r.listing.size

theorem State.buildReport_withheld_iff (s : State) (k : Station) (item : ListingItem) :
    (s.buildReport k item).withheld = true ↔ 148 < (s.buildReport k item).fullSize := by
  have hn : (s.buildReport k item).summaries.length = (s.reported k).length := List.length_map _
  rw [Report.fullSize, hn]
  exact decide_eq_true_iff

/-- What a report carries of its full size: all but the result data it withholds. -/
theorem Report.length_bytes_eq (r : Report) (hn : r.summaries.length ≤ 7) :
    r.bytes.length = if r.withheld then r.fullSize - r.ack.data.length else r.fullSize := by
  rw [r.length_bytes, r.length_payload hn, r.length_carriedData, Report.fullSize]
  split <;> omega

/-- Withholding is enough: four summaries and a listing record without result data are 129 bytes. -/
theorem State.length_bytes_buildReport_le (s : State) (k : Station) (item : ListingItem) :
    (s.buildReport k item).bytes.length ≤ 148 := by
  have hn := s.length_summaries_buildReport_le k item
  have hsize := (s.buildReport k item).listing.size_le
  rw [Report.length_bytes_eq _ (by omega)]
  split
  · rw [Report.fullSize]
    omega
  · next h => exact Nat.not_lt.mp fun hfull => h ((s.buildReport_withheld_iff k item).mpr hfull)

/-- Only a listing record makes a report too long for result data of at most 48 bytes. -/
theorem State.buildReport_not_withheld (s : State) {k : Station} {item : ListingItem}
    (hd : (s.link k).ack.data.length ≤ 48) (h : ∀ c, item ≠ .record c) : (s.buildReport k item).withheld = false := by
  have hn := s.length_summaries_buildReport_le k item
  have hdata : (s.buildReport k item).ack.data.length ≤ 48 := hd
  have hsize : (s.buildReport k item).listing.size = 0 := item.size_of_ne_record h
  rw [← Bool.not_eq_true, s.buildReport_withheld_iff, Report.fullSize]
  omega

/-- Settles O53: the fixed part of the payload and the sizes of the other parts give the sum of R186, and what is left
without the result data always fits. -/
theorem reportsFitIn148Bytes : Obligations.ReportsFitIn148Bytes := by
  intro s k item hd r record full
  have hn : r.summaries.length ≤ 7 := (s.length_summaries_buildReport_le k item).trans (by decide)
  refine ⟨s.buildReport_withheld_iff k item, rfl, rfl, s.buildReport_not_withheld hd, fun h => ?_, ?_,
    r.length_bytes_eq hn, s.length_bytes_buildReport_le k item, r.payload_withheld_bit hn, r.payload_data_length hn⟩
  · have hcarried : r.carriedData = (s.link k).ack.data := Report.carriedData_of_not_withheld h
    rw [← hcarried]
    exact r.take_drop_payload hn
  · rw [r.length_payload hn, r.length_carriedData]
    rfl

end Sys2Proof.Machine
end

section
/-! PROOFS. Proofs/CommandFrames.lean: the parts of the state each command may change, assembled from the frames of the
operations (Laws/Frames.lean to Laws/StartFrames.lean). -/

namespace Sys2Proof.Machine

variable {s t : State}

/-! ### The parts of the large commands -/

theorem houseParts_housePart : HouseParts housePart := by constructor <;> decide

theorem deskParts_deskParts : DeskParts deskParts := by
  constructor
  case house => constructor <;> decide
  all_goals decide

theorem restartParts_restart : RestartParts ([.cues, .fetches, .fetchOut, .routes, .claims, .linkStates] ++ playParts) := by
  constructor <;> decide

/-! ### Command rows -/

/-- A command row starts as a message does; it is one event of the clip table exactly when it may change the table. -/
theorem exec_row {i : Instr} {k : Station} (h : i.sender = some k) (s : State) :
    Part.clips ∉ touches i ∧ exec i s = act (startRow i) s ∨
      Part.clips ∈ touches i ∧ exec i s = act (fun u => u.inEvent (startRow i)) s := by
  cases i
  case markIn | markOut | protect | unprotect | delete | label | tagAdd | tagRemove | hero | live | load | unload | gang
      | loadClip | cueNext | houseRate | restart =>
    exact .inr ⟨by simp [touches, clipParts, playParts, startParts, housePart], rfl⟩
  case play | pause | angle | ungang | black | unblack | cueAdd | cueClear | claim | cancel | release | forceRelease | select
      | cut | preview | take | list | angleSet | recStart | recStop | curveSet | linkSet | stationSet | statsTimeBase
      | statsRecorder | statsPageStore | statsChannel | statsLink =>
    exact .inl ⟨by simp [touches, headParts, startParts], rfl⟩
  all_goals cases h

/-- The start of a command row changes only its parts. -/
theorem frame_startRow_touches (i : Instr) (k : Frame (touches i) s t) : Frame (touches i) s (startRow i t) := by
  cases i
  case markIn => exact frame_startMarkIn (m := clipParts) (by decide) (by decide) (by decide) (by decide) _ k
  case markOut => exact frame_startMarkOut (m := clipParts) (by decide) (by decide) (by decide) (by decide) _ k
  case protect => exact frame_startProtect (m := clipParts) (by decide) (by decide) (by decide) (by decide) _ _ _ k
  case unprotect => exact frame_startUnprotect (m := clipParts) (by decide) (by decide) (by decide) (by decide) _ _ _ k
  case delete => exact frame_startDelete (m := clipParts) (by decide) (by decide) (by decide) (by decide) _ _ _ k
  case label => exact frame_startLabel (m := clipParts) (by decide) (by decide) (by decide) _ _ _ k _
  case tagAdd => exact frame_startTagAdd (m := clipParts) (by decide) (by decide) (by decide) _ _ _ k _
  case tagRemove => exact frame_startTagRemove (m := clipParts) (by decide) (by decide) (by decide) _ _ _ k _
  case hero => exact frame_startHero (m := clipParts) (by decide) (by decide) (by decide) _ _ _ k _
  case play => exact frame_startPlay (m := headParts) (by decide) (by decide) (by decide) (by decide) _ _ k _
  case pause => exact frame_startPause (m := headParts) (by decide) (by decide) (by decide) (by decide) _ _ k
  case angle => exact frame_startAngle (m := headParts) (by decide) (by decide) (by decide) (by decide) _ _ k _
  case ungang => exact frame_startUngang (m := headParts) (by decide) (by decide) (by decide) (by decide) _ _ k
  case select => exact frame_startSelect (m := headParts) (by decide) (by decide) _ _ k (by decide) (by decide)
  case live => exact frame_startLive (m := playParts) (by decide) (by decide) (by decide) (by decide) _ _ k (by decide)
  case load => exact frame_startLoad (m := playParts) (by decide) (by decide) (by decide) (by decide) _ _ k (by decide) _ _
  case unload => exact frame_startUnload (m := playParts) (by decide) (by decide) (by decide) (by decide) _ _ k (by decide)
  case gang => exact frame_startGang (m := playParts) (by decide) (by decide) (by decide) (by decide) _ _ k (by decide) _
  case loadClip =>
    exact frame_startLoadClip (m := playParts) (by decide) (by decide) (by decide) (by decide) _ _ k (by decide) _ _ _ _
  case black => exact frame_startBlack (m := .channels :: startParts) (by decide) (by decide) (by decide) _ _ k
  case unblack => exact frame_startUnblack (m := .channels :: startParts) (by decide) (by decide) (by decide) _ _ k
  case cueAdd => exact frame_startCueAdd (m := .cues :: startParts) (by decide) (by decide) _ _ k (by decide) _ _ _ _
  case cueClear =>
    exact frame_startCueClear (m := [.cues, .channels] ++ startParts) (by decide) (by decide) (by decide) _ _ k (by decide)
  case cueNext =>
    exact frame_startCueNext (m := .cues :: playParts) (by decide) (by decide) (by decide) (by decide) _ _ k (by decide)
      (by decide)
  case claim => exact frame_startClaim (m := .claims :: startParts) (by decide) (by decide) _ _ k (by decide)
  case cancel => exact frame_startCancel (m := .claims :: startParts) (by decide) (by decide) _ k (by decide)
  case release =>
    exact frame_startRelease (m := .claims :: headParts) (by decide) (by decide) _ _ k (by decide) (by decide) (by decide)
  case forceRelease =>
    exact frame_startForceRelease (m := .claims :: headParts) (by decide) (by decide) _ _ k (by decide) (by decide)
      (by decide)
  case cut => exact frame_startCut (m := .routes :: startParts) (by decide) (by decide) _ _ k (by decide)
  case preview => exact frame_startPreview (m := .routes :: startParts) (by decide) (by decide) _ _ k (by decide)
  case take => exact frame_startTake (m := .routes :: startParts) (by decide) (by decide) _ k (by decide)
  case list => exact frame_startList (m := startParts) (by decide) (by decide) _ k _
  case angleSet =>
    exact frame_startAngleSet (m := [.recorders, .pageNumbers, .pages] ++ startParts) (by decide) (by decide) _ k (by decide)
      (by decide) (by decide) _ _ _
  case recStart => exact frame_startRecStart (m := .recorders :: startParts) (by decide) (by decide) _ k (by decide) _
  case recStop =>
    exact frame_startRecStop (m := [.recorders, .pages] ++ startParts) (by decide) (by decide) _ k (by decide) (by decide) _
  case houseRate => exact frame_startHouseRate (m := housePart) _ k (by decide) houseParts_housePart _ _ _
  case curveSet => exact frame_startCurveSet (m := .curve :: startParts) (by decide) (by decide) _ k (by decide) _
  case linkSet =>
    exact frame_startLinkSet (m := [.claims, .channels, .pages, .linkStates] ++ startParts) (by decide) (by decide) _ k
      (by decide) (by decide) (by decide) (by decide) _ _ _
  case stationSet =>
    exact frame_startStationSet (m := .settings :: startParts) (by decide) (by decide) _ k (by decide) _ _ _ _ _
  case statsTimeBase =>
    exact frame_startStats (m := .timeBase :: startParts) (by decide) (by decide) _ k _
      fun _ hu => frame_statsTimeBaseRule (by decide) _ _ _ hu
  case statsRecorder =>
    exact frame_startStats (m := [.recorders, .unknownAngles] ++ startParts) (by decide) (by decide) _ k _
      fun _ hu => frame_statsRecorderRule (by decide) (by decide) _ _ _ hu
  case statsPageStore =>
    exact frame_startStats (m := .pages :: startParts) (by decide) (by decide) _ k _
      fun _ hu => frame_statsPageStoreRule (by decide) _ _ _ hu
  case statsChannel =>
    exact frame_startStats (m := [.channels, .unmatchedPartWide] ++ startParts) (by decide) (by decide) _ k _
      fun _ hu => frame_statsChannelRule (by decide) (by decide) _ _ _ hu
  case statsLink =>
    exact frame_startStats (m := startParts) (by decide) (by decide) _ k _
      fun _ hu => frame_statsLinkRule (by decide) _ _ _ hu
  case restart => exact frame_startRestart (m := [.cues, .fetches, .fetchOut, .routes, .claims, .linkStates] ++ playParts) (by decide) (by decide) _ k restartParts_restart
  all_goals exact k

/-- A command row changes only its parts. -/
theorem frame_exec_row {i : Instr} {k : Station} (hi : i.sender = some k) (h : exec i s = .next t) :
    Frame (touches i) s t := by
  rcases exec_row hi s with ⟨-, he⟩ | ⟨hc, he⟩
  · exact frame_act _ (fun _ => frame_startRow_touches i) (he ▸ h)
  · exact frame_act _ (fun _ => frame_inEvent hc _ fun _ => frame_startRow_touches i) (he ▸ h)

/-! ### Events -/

/-- HARDWARE_RESET keeps the queue and the drawing count (R184, notes/assumptions/26.md). -/
theorem frame_hardwareReset {moment : Nat} (h : exec (.hardwareReset moment) s = .next t) :
    Frame (touches (.hardwareReset moment)) s t := by
  cases h
  intro p hp
  cases p
  case draws | pending => rfl
  all_goals exact absurd (by simp [touches]) hp

/-- RESET_LINE_HELD breaks off the reports in transmission and holds RESET (R184). -/
theorem frame_resetLineHeld (h : exec .resetLineHeld s = .next t) : Frame (touches .resetLineHeld) s t := by
  cases h
  intro p hp
  cases p
  case links | resetHeld => exact absurd (by decide) hp
  case linkStates => exact fun k => by simp [State.link]
  all_goals simp [State.agree, State.pageList, State.chan]

/-- An event that is no command row changes only its parts. -/
theorem frame_exec_event {i : Instr} (hi : i.sender = none) (h : exec i s = .next t) : Frame (touches i) s t := by
  cases i
  case hardwareReset => exact frame_hardwareReset h
  case resetLineHeld => exact frame_resetLineHeld h
  case referencePulse moment order =>
    exact frame_act (m := housePart) _ (fun _ => frame_inEvent (by decide) _ fun _ =>
      frame_pulse (by decide) houseParts_housePart _ _) h
  case timerEvent order =>
    simp only [exec, execTimerEvent] at h
    refine frame_act (m := housePart) _ (fun u k => ?_) h
    split
    · exact frame_inEvent (by decide) _ (fun _ => frame_timerGives (by decide) houseParts_housePart _ _) k
    · exact k
  case referenceLoss order =>
    exact frame_act (m := housePart) _ (fun _ => frame_inEvent (by decide) _ fun _ =>
      frame_loseReference (by decide) houseParts_housePart _) h
  case angleAbsent a => exact frame_act (m := [.recorders, .links]) _ (fun _ => frame_loseAngle (by decide) (by decide) a) h
  case arrivalNotice angle stamp phase =>
    simp only [exec, execArrivalNotice] at h
    refine frame_act (m := touches (.arrivalNotice angle stamp phase)) _ (fun u k => ?_) h
    split
    · exact frame_takeNotice (by simp [touches]) (by simp [touches]) (by simp [touches]) (by simp [touches])
        (by simp [touches]) _ _ _ _ k
    · exact frame_answerIngest (by simp [touches]) _ (frame_unknownAngles (by simp [touches]) _ k)
  case writeCompletion angle slot status =>
    simp only [exec, execWriteCompletion] at h
    refine frame_act (m := touches (.writeCompletion angle slot status)) _ (fun u k => ?_) h
    split
    · exact frame_takeCompletion (by simp [touches]) (by simp [touches]) (by simp [touches]) _ _ _ k
    · exact frame_unknownAngles (by simp [touches]) _ k
  case scanVisit =>
    exact frame_act (m := [.pages, .clips]) _ (fun _ => frame_inEvent (by decide) _ fun _ =>
      frame_scanVisit (by decide) (by decide)) h
  case fetchCompletion channel tag status =>
    simp only [exec, execFetchCompletion] at h
    refine frame_act (m := touches (.fetchCompletion channel tag status)) _ (fun u k => ?_) h
    split
    · exact frame_unmatched (by simp [touches]) _ k
    · exact frame_fetchCompleted (by simp [touches]) (by simp [touches]) (by simp [touches]) (by simp [touches]) _ _ _ k
  case coolDownEnd stn c => exact frame_act (m := [.claims]) _ (fun _ => frame_endCoolDown (by decide) stn c) h
  case claimTimeout stn =>
    exact frame_act (m := [.claims, .links]) _ (fun _ => frame_timeOutClaim (by decide) (by decide) stn) h
  case linkLoss j =>
    exact frame_act (m := [.pages, .channels, .linkStates, .links]) _
      (fun _ => frame_loseLink (by decide) (by decide) (by decide) (by decide) j) h
  case graceExpiry j =>
    exact frame_act (m := [.pages, .clips, .channels, .claims, .linkStates, .links]) _ (fun _ => frame_inEvent (by decide) _
      fun _ => frame_expireGrace (by decide) (by decide) (by decide) (by decide) (by decide) (by decide) j) h
  case alertTimerExpiry j alert =>
    simp only [exec, execAlertTimerExpiry] at h
    refine frame_act (m := [.links]) _ (fun u k => ?_) h
    split
    · exact frame_modLink (by decide) _ _ (fun _ => ⟨by rfl, by rfl⟩) k
    · exact k
  case interbyteTimeout j moment order =>
    simp only [exec, execInterbyteTimeout] at h
    refine frame_act (m := deskParts) _ (fun u k => ?_) h
    split
    · exact k
    · exact frame_receive deskParts_deskParts _ _ _ _ _ _ k
  case deskFrame j bytes moment order =>
    exact frame_act (m := deskParts) _ (fun _ => frame_receive deskParts_deskParts _ _ _ _ _ _) h
  case reportTransmissionEnd j =>
    exact frame_act (m := [.links]) _ (fun _ => frame_modLink (by decide) _ _ fun _ => ⟨by rfl, by rfl⟩) h
  all_goals cases hi

/-! ### Every command -/

theorem frame_exec {i : Instr} (h : exec i s = .next t) : Frame (touches i) s t := by
  cases hi : i.sender with
  | none => exact frame_exec_event hi h
  | some k => exact frame_exec_row hi h

theorem exec_next (i : Instr) (s : State) : ∃ t, exec i s = .next t := by
  cases i <;> exact ⟨_, rfl⟩

theorem pending_not_touched (i : Instr) : .pending ∉ touches i := by
  cases i <;> simp [touches, housePart, deskParts, clipParts, headParts, playParts, startParts]

/-- Settles O3: every command is taken, and its frame is that of its start or its event. -/
theorem commandsTouchOnlyTheirParts : Obligations.CommandsTouchOnlyTheirParts := by
  intro i s
  obtain ⟨t, ht⟩ := exec_next i s
  exact ⟨t, ht, frame_exec ht, pending_not_touched i⟩

end Sys2Proof.Machine
end

section
/-! PROOFS. Proofs/Keeping.lean: what every operation keeps, said in one relation: the limits of the control side, the place
of every page, and the account of the table generation (R38, R62, R89, R122, R136, R157, R161, R180). Every lemma goes on
from a state `t` that the event has reached from `s`, as in Laws/Generation.lean. -/

namespace Sys2Proof.Machine

variable {m : List Part} {s t u : State}

/-! ### The relation -/

/-- A link is in OFF exactly when it is disabled (R161), and link 0 is enabled (R180). -/
def Link.InRange (k : Station) (l : Link) : Prop := (l.enabled = true ↔ l.state ≠ .off) ∧ (k = 0 → l.enabled = true)

/-- The limits of the control side within an event: those of `State.InRange` but the mark of the event. -/
structure State.Within (s : State) : Prop where
  routes : s.arbiter.pgm ≠ s.arbiter.pvw
  links : ∀ k, (s.link k).InRange k
  chans : ∀ c, (s.chan c).InRange
  curve : CurveInRange s.curve

theorem inRange_iff : s.InRange ↔ s.Within ∧ s.clips.raised = false := by
  constructor
  · rintro ⟨hr, hl, h0, hc, hv, he⟩
    exact ⟨⟨hr, fun k => ⟨hl k, by rintro rfl; exact h0⟩, hc, hv⟩, he⟩
  · rintro ⟨⟨hr, hl, hc, hv⟩, he⟩
    exact ⟨hr, fun k => (hl k).1, (hl 0).2 rfl, hc, hv, he⟩

/-- What `t` has kept from `s`. -/
structure Keeps (s t : State) : Prop where
  within : s.Within → t.Within
  placed : s.PagesPlaced → t.PagesPlaced
  tells : Tells s t

theorem Keeps.refl (s : State) : Keeps s s := ⟨id, id, Tells.refl s⟩

theorem Keeps.trans (h : Keeps s t) (k : Keeps t u) : Keeps s u :=
  ⟨k.within ∘ h.within, k.placed ∘ h.placed, h.tells.trans k.tells⟩

theorem Keeps.foldl {α : Type} (l : List α) (f : State → α → State) (hf : ∀ u a, Keeps s u → Keeps s (f u a))
    (k : Keeps s t) : Keeps s (l.foldl f t) := by
  induction l generalizing t with
  | nil => exact k
  | cons a l ih => exact ih (hf t a k)

theorem pagesPlaced_of_agree (h : t.agree u .pageNumbers) (hp : t.PagesPlaced) : u.PagesPlaced := by
  obtain ⟨hpool, hlists⟩ := h
  have hn : u.pageNumbers = t.pageNumbers := by simp only [State.pageNumbers, hpool, hlists]
  unfold State.PagesPlaced
  rwa [hn]

theorem channel_inRange_of_agree {c : Chan} (hq : t.agree u .cues) (hf : t.agree u .fetches) (h : (t.chan c).InRange) :
    (u.chan c).InRange := by
  obtain ⟨hin, htag⟩ := hf c
  unfold Channel.InRange
  rwa [hin, htag, hq c]

theorem link_inRange_of_agree {k : Station} (h : t.agree u .linkStates) (hl : (t.link k).InRange k) :
    (u.link k).InRange k := by
  obtain ⟨hs, he⟩ := h k
  unfold Link.InRange
  rwa [hs, he]

/-- What a change of the parts of `m` keeps: each part on which a limit hangs is not in `m`, or its limit is kept. -/
theorem keeps_of_frame (h : Frame m t u) (hn : .pageNumbers ∉ m ∨ (t.PagesPlaced → u.PagesPlaced))
    (hr : .routes ∉ m ∨ (t.arbiter.pgm ≠ t.arbiter.pvw → u.arbiter.pgm ≠ u.arbiter.pvw))
    (hl : .linkStates ∉ m ∨ ∀ j, (t.link j).InRange j → (u.link j).InRange j)
    (hc : .cues ∉ m ∧ .fetches ∉ m ∨ ∀ c, (t.chan c).InRange → (u.chan c).InRange)
    (hv : .curve ∉ m ∨ (CurveInRange t.curve → CurveInRange u.curve)) (ht : .clips ∉ m ∨ Tells t u) (k : Keeps s t) :
    Keeps s u := by
  refine k.trans ⟨fun w => ⟨?_, fun j => ?_, fun c => ?_, ?_⟩, ?_, ?_⟩
  · rcases hr with hr | hr
    · obtain ⟨hpgm, hpvw⟩ := h _ hr
      rw [hpgm, hpvw]
      exact w.routes
    · exact hr w.routes
  · rcases hl with hl | hl
    · exact link_inRange_of_agree (h _ hl) (w.links j)
    · exact hl j (w.links j)
  · rcases hc with ⟨hq, hf⟩ | hc
    · exact channel_inRange_of_agree (h _ hq) (h _ hf) (w.chans c)
    · exact hc c (w.chans c)
  · rcases hv with hv | hv
    · have e : u.curve = t.curve := h _ hv
      rw [e]
      exact w.curve
    · exact hv w.curve
  · rcases hn with hn | hn
    · exact pagesPlaced_of_agree (h _ hn)
    · exact hn
  · rcases ht with ht | ht
    · exact (Tells.refl t).frame h ht
    · exact ht

/-- The parts of the state on which no limit hangs. -/
def quietParts : List Part :=
  [.timeBase, .recorders, .unknownAngles, .ingestOut, .pages, .channels, .unmatchedPartWide, .fetchOut, .claims, .links,
   .settings, .resetHeld, .draws]

theorem keeps_quiet (h : Frame quietParts t u) (k : Keeps s t) : Keeps s u :=
  keeps_of_frame h (.inl (by decide)) (.inl (by decide)) (.inl (by decide)) (.inl (by decide)) (.inl (by decide))
    (.inl (by decide)) k

/-- A change that reaches the clip table too tells of it. -/
theorem keeps_table (h : Frame (.clips :: quietParts) t u) (ht : Tells t u) (k : Keeps s t) : Keeps s u :=
  keeps_of_frame h (.inl (by decide)) (.inl (by decide)) (.inl (by decide)) (.inl (by decide)) (.inl (by decide)) (.inr ht) k

/-- A change that reaches the link states too keeps the limits of every link. -/
theorem keeps_linkStates (h : Frame (.linkStates :: quietParts) t u)
    (hl : ∀ j, (t.link j).InRange j → (u.link j).InRange j) (k : Keeps s t) : Keeps s u :=
  keeps_of_frame h (.inl (by decide)) (.inl (by decide)) (.inr hl) (.inl (by decide)) (.inl (by decide)) (.inl (by decide)) k

/-- A change that reaches the page numbers too keeps every page in its place. -/
theorem keeps_numbers (h : Frame (.pageNumbers :: quietParts) t u) (hp : t.PagesPlaced → u.PagesPlaced) (k : Keeps s t) :
    Keeps s u :=
  keeps_of_frame h (.inr hp) (.inl (by decide)) (.inl (by decide)) (.inl (by decide)) (.inl (by decide)) (.inl (by decide)) k

/-! ### Updates of a part -/

theorem keeps_modChan (c : Chan) (f : Channel → Channel) (hf : (t.chan c).InRange → (f (t.chan c)).InRange)
    (k : Keeps s t) : Keeps s (t.modChan c f) := by
  refine keeps_of_frame (m := [.channels, .cues, .fetches])
    (frame_modChan_any c f (.inl (by decide)) (.inl (by decide)) (.inl (by decide)) (Frame.refl _ t)) (.inl (by decide))
    (.inl (by decide)) (.inl (by decide)) (.inr fun d hd => ?_) (.inl (by decide)) (.inl (by decide)) k
  rw [chan_modChan]
  split
  · next e => subst e; exact hf hd
  · exact hd

theorem keeps_modLink (j : Station) (f : Link → Link) (hf : (t.link j).InRange j → (f (t.link j)).InRange j)
    (k : Keeps s t) : Keeps s (t.modLink j f) := by
  refine keeps_linkStates (frame_modLink_any j f (.inl (by decide)) (.inl (by decide)) (Frame.refl _ t)) (fun i hi => ?_) k
  rw [link_modLink]
  split
  · next e => subst e; exact hf hi
  · exact hi

theorem keeps_arbiter (x : Arbiter) (h : t.arbiter.pgm ≠ t.arbiter.pvw → x.pgm ≠ x.pvw) (k : Keeps s t) :
    Keeps s { t with arbiter := x } :=
  keeps_of_frame (m := [.routes, .claims]) (frame_arbiter (by decide) (by decide) x (Frame.refl _ t)) (.inl (by decide))
    (.inr h) (.inl (by decide)) (.inl (by decide)) (.inl (by decide)) (.inl (by decide)) k

theorem keeps_curve (x : Vector Nat 11) (h : CurveInRange x) (k : Keeps s t) : Keeps s { t with curve := x } :=
  keeps_of_frame (m := [.curve]) (frame_curve (by decide) x (Frame.refl _ t)) (.inl (by decide)) (.inl (by decide))
    (.inl (by decide)) (.inl (by decide)) (.inr fun _ => h) (.inl (by decide)) k

theorem keeps_writeAck (j : Station) (ack : AckArea) (k : Keeps s t) : Keeps s (t.writeAck j ack) :=
  keeps_quiet (frame_writeAck (by decide) _ _ (Frame.refl _ t)) k

/-- What the start of a command keeps: what its owning block's rule keeps for arguments that fit (R169). -/
theorem keeps_startCommand (stn : Station) (kind : CommandKind) (fits : Bool) (body : State → State × Reply)
    (hb : fits = true → ∀ u, Keeps s u → Keeps s (body u).1) (k : Keeps s t) :
    Keeps s (startCommand stn kind fits body t) := by
  unfold startCommand
  split
  · exact k
  split
  · exact keeps_quiet (frame_answerBusy (by decide) _ _ (Frame.refl _ t)) k
  split
  · exact keeps_writeAck _ _ k
  split
  · exact keeps_writeAck _ _ k
  · next hf =>
    refine keeps_writeAck _ _ (hb (by simpa using hf) _ (keeps_quiet ?_ k))
    exact frame_nextDraw (by decide) (frame_modLinkCounts (by decide) _ _ (Frame.refl _ t))

theorem keeps_onChannel (stn : Station) (channel : Byte) (rule : Chan → State → State × Reply)
    (hr : ∀ c u, Keeps s u → Keeps s (rule c u).1) (k : Keeps s t) : Keeps s (onChannel stn channel rule t).1 := by
  unfold onChannel
  split
  · exact k
  · split
    · exact k
    · exact hr _ _ k

theorem keeps_onLeader (rule : Chan → State → State) (hr : ∀ c u, Keeps s u → Keeps s (rule c u)) (c : Chan)
    (k : Keeps s t) : Keeps s (onLeader rule c t).1 := by
  unfold onLeader
  split
  · exact k
  · exact hr _ _ k

theorem keeps_onAngle (angle : Byte) (rule : Angle → State → State × Reply)
    (hr : ∀ a u, Keeps s u → Keeps s (rule a u).1) (k : Keeps s t) : Keeps s (onAngle angle rule t).1 := by
  unfold onAngle
  split
  · exact hr _ _ k
  · exact k

theorem keeps_onRoute (stn : Station) (channel : Byte) (rule : Chan → State → State × Reply)
    (hr : ∀ c u, Keeps s u → Keeps s (rule c u).1) (k : Keeps s t) : Keeps s (onRoute stn channel rule t).1 := by
  unfold onRoute
  repeat' split
  all_goals first | exact k | exact hr _ _ k

theorem keeps_onClip (stn : Station) (id serial : BitVec 16) (rule : Clip → State → State × Reply)
    (hr : ∀ c u, Keeps s u → Keeps s (rule c u).1) (k : Keeps s t) : Keeps s (onClip stn id serial rule t).1 := by
  unfold onClip
  repeat' split
  all_goals first | exact k | exact hr _ _ k

/-! ### The place of every page (R38) -/

theorem pageNumbers_perm (s : State) (a : Angle) :
    s.pageNumbers.Perm (s.pages.pool ++ ((s.pageList a).map (·.number) ++
      (allAngles.erase a).flatMap fun b => (s.pageList b).map (·.number))) := by
  have ha : a ∈ allAngles := by fin_cases a <;> decide
  have h := (List.perm_cons_erase ha).flatMap_right fun b => (s.pageList b).map (·.number)
  exact List.Perm.append_left _ h

/-- A change of the pool and of one record list that only moves page numbers keeps each in its place. -/
theorem pagesPlaced_of_moved (a : Angle) (ho : ∀ b, b ≠ a → t.pageList b = s.pageList b)
    (h : (t.pages.pool ++ (t.pageList a).map (·.number)).Perm (s.pages.pool ++ (s.pageList a).map (·.number)))
    (hp : s.PagesPlaced) : t.PagesPlaced := by
  have hothers : (allAngles.erase a).flatMap (fun b => (t.pageList b).map (·.number)) =
      (allAngles.erase a).flatMap fun b => (s.pageList b).map (·.number) := by
    refine List.flatMap_congr fun b hb => ?_
    have hne : b ≠ a := fun e => absurd (e ▸ hb) (List.Nodup.not_mem_erase (by decide))
    rw [ho b hne]
  have hs := pageNumbers_perm s a
  have ht := pageNumbers_perm t a
  rw [hothers] at ht
  rw [← List.append_assoc] at hs ht
  exact ht.trans ((h.append_right _).trans (hs.symm.trans hp))

theorem pagesPlaced_nodup (hp : s.PagesPlaced) (a : Angle) : ((s.pageList a).map (·.number)).Nodup := by
  have h : s.pageNumbers.Nodup := hp.nodup_iff.mpr (List.nodup_range' ..)
  have h' := ((pageNumbers_perm s a).nodup_iff.mp h)
  exact (List.nodup_append.mp (List.nodup_append.mp h').2.1).1

theorem releaseInPoints_numbers (l : List Page) (moved : Nat) :
    (releaseInPoints l moved).map (·.number) = l.map (·.number) := by
  unfold releaseInPoints
  split
  · next p hp =>
    conv_rhs => rw [← List.dropLast_append_getLast? p hp]
    simp
  · next hn => simp [List.getLast?_eq_none_iff.mp hn]

theorem reclaimCandidate_mem {l : List Page} {p : Page} (h : reclaimCandidate l = some p) : p ∈ l :=
  List.dropLast_subset l (List.mem_of_find?_eq_some h)

/-- The page of a number that stands once in a list may go to its end. -/
theorem perm_filter_append_number {l : List Page} {n : Nat} (hn : (l.map (·.number)).Nodup)
    (hm : n ∈ l.map (·.number)) :
    ((l.filter fun q => q.number != n).map (·.number) ++ [n]).Perm (l.map (·.number)) := by
  have h : (l.filter fun q => q.number != n).map (·.number) = (l.map (·.number)).erase n := by
    rw [hn.erase_eq_filter, List.filter_map]
    rfl
  rw [h]
  exact (List.perm_append_singleton _ _).trans (List.perm_cons_erase hm).symm

/-- What a page supply makes of the pool and of the angle's list: a drawn page, a reclaimed one, or none (R40 to R42). -/
theorem pagesPlaced_supplyPage (a : Angle) (frame : Nat) (hp : t.PagesPlaced) : (t.supplyPage a frame).1.PagesPlaced := by
  have hnum : ∀ moved, (releaseInPoints (sealFilling (t.pageList a)) moved).map (·.number) =
      (t.pageList a).map (·.number) := fun moved => by rw [releaseInPoints_numbers, sealFilling_numbers]
  unfold State.supplyPage
  dsimp only
  split
  · next n hdraw =>
    split at hdraw
    · obtain ⟨rest, hpool⟩ := List.head?_eq_some_iff.mp hdraw
      refine pagesPlaced_of_moved a (fun b hb => by rw [pageList_modPageList, if_neg hb]; rfl) ?_ hp
      simp only [pageList_modPageList_same, List.map_append, hnum, hpool]
      rw [← List.append_assoc]
      exact List.perm_append_singleton _ _
    · cases hdraw
  · split
    · next p hcand =>
      refine pagesPlaced_of_moved a (fun b hb => by rw [pageList_modPageList, if_neg hb]; rfl) ?_ hp
      simp only [pageList_modPageList_same, List.map_append, List.map_cons, List.map_nil]
      refine List.Perm.append_left _ ?_
      rw [← hnum (t.movedInPoints a frame)]
      refine perm_filter_append_number (by rw [hnum]; exact pagesPlaced_nodup hp a) ?_
      rw [hnum, ← sealFilling_numbers]
      exact List.mem_map_of_mem (reclaimCandidate_mem hcand)
    · refine pagesPlaced_of_moved a (fun b hb => by rw [pageList_modPageList, if_neg hb]; rfl) ?_ hp
      simp only [pageList_modPageList_same, sealFilling_numbers]
      exact List.Perm.refl _

theorem pagesPlaced_emptyAngle (a : Angle) (hp : t.PagesPlaced) : (t.emptyAngle a).PagesPlaced := by
  refine pagesPlaced_of_moved a (fun b hb => ?_) ?_ hp
  · rw [State.emptyAngle, pageList_modPageList, if_neg hb]
    rfl
  · rw [State.emptyAngle, pageList_modPageList_same, List.map_nil, List.append_nil]
    exact List.Perm.refl _

theorem keeps_supplyPage (a : Angle) (frame : Nat) (k : Keeps s t) : Keeps s (t.supplyPage a frame).1 :=
  keeps_numbers (frame_supplyPage (by decide) (by decide) _ _ (Frame.refl _ t)) (pagesPlaced_supplyPage a frame) k

theorem keeps_emptyAngle (a : Angle) (k : Keeps s t) : Keeps s (t.emptyAngle a) :=
  keeps_numbers (frame_emptyAngle (by decide) (by decide) _ (Frame.refl _ t)) (pagesPlaced_emptyAngle a) k

theorem keeps_findPage (a : Angle) (n : Nat) (k : Keeps s t) : Keeps s (t.findPage a n).1 := by
  unfold State.findPage
  repeat' split
  all_goals first | exact k | exact keeps_supplyPage _ _ k

theorem keeps_takeNotice (a : Angle) (angle : BitVec 4) (stamp : BitVec 16) (phase : BitVec 3) (k : Keeps s t) :
    Keeps s (t.takeNotice a angle stamp phase) := by
  have k1 : Keeps s (t.modRecorder a fun r => { r with present := true, silence := 0 }) :=
    keeps_quiet (frame_modRecorder (by decide) _ _ (Frame.refl _ t)) k
  have hrefuse := fun u kind => frame_refuseNotice (m := quietParts) (by decide) (by decide) (by decide) a angle stamp phase
    kind (Frame.refl _ u)
  unfold State.takeNotice
  dsimp only
  split
  · exact keeps_quiet (hrefuse _ _) k1
  · next n _ =>
    have k2 := keeps_findPage a n k1
    split
    · next h =>
      rw [h] at k2
      exact keeps_quiet (hrefuse _ _) k2
    · next h =>
      rw [h] at k2
      exact keeps_quiet (frame_answerIngest (by decide) _ (frame_grantFrame (by decide) (by decide) (by decide) _ _ _
        (Frame.refl _ _))) k2

theorem keeps_angleSetRule (rm quota : Nat) (a : Angle) (k : Keeps s t) : Keeps s (angleSetRule rm quota a t).1 := by
  unfold angleSetRule
  repeat' split
  all_goals first
    | exact k
    | exact keeps_quiet (frame_modRecorder (by decide) _ _ (Frame.refl _ _)) (keeps_emptyAngle _ k)

/-! ### Fetches and cues (R122, R130, R136) -/

/-- A channel whose fetches in flight are some of those before, and whose queue is no longer, is in range as before. -/
theorem Channel.InRange.of_fewer {ch ch' : Channel} (h : ch.InRange)
    (ht : (ch'.inFlight.map (·.tag)).Sublist (ch.inFlight.map (·.tag))) (hn : ch'.nextTag = ch.nextTag)
    (hq : ch'.cues.length ≤ ch.cues.length) : ch'.InRange := by
  obtain ⟨hlen, hnodup, htags, hnext, hcues⟩ := h
  have hlen' := ht.length_le
  simp only [List.length_map] at hlen'
  refine ⟨hlen'.trans hlen, hnodup.sublist ht, fun e he => ?_, hn ▸ hnext, hq.trans hcues⟩
  obtain ⟨e', he', htag⟩ := List.mem_map.mp (ht.subset (List.mem_map_of_mem he))
  exact htag ▸ htags e' he'

/-- The tag a request takes differs from those in flight, while fewer than two are (R136). -/
theorem Channel.takenTag_fresh {ch : Channel} (h : ch.InRange) (hlen : ch.inFlight.length < 2) :
    ch.takenTag < 256 ∧ ∀ e ∈ ch.inFlight, e.tag ≠ ch.takenTag := by
  obtain ⟨-, -, -, hnext, -⟩ := h
  unfold Channel.takenTag
  split
  · next hany =>
    refine ⟨Nat.mod_lt _ (by decide), fun e he => ?_⟩
    obtain ⟨e', he', htag⟩ := List.any_eq_true.mp hany
    have heq : e = e' := by
      rcases hf : ch.inFlight with _ | ⟨x, _ | ⟨y, rest⟩⟩
      · simp [hf] at he
      · simp only [hf, List.mem_singleton] at he he'
        rw [he, he']
      · simp only [hf, List.length_cons] at hlen
        omega
    have : e.tag = ch.nextTag := by simpa [heq] using htag
    omega
  · next hany =>
    refine ⟨hnext, fun e he htag => hany (List.any_eq_true.mpr ⟨e, he, by simpa using htag⟩)⟩

/-- A channel that has issued a request with the tag it takes is in range (R136). -/
theorem Channel.inRange_issued {ch : Channel} (h : ch.InRange) (hlen : ch.inFlight.length < 2) (e : FetchEntry)
    (he : e.tag = ch.takenTag) (n : ChanCounts) :
    Channel.InRange { ch with inFlight := ch.inFlight ++ [e], nextTag := (ch.takenTag + 1) % 256, counts := n } := by
  obtain ⟨hlt, hfresh⟩ := Channel.takenTag_fresh h hlen
  obtain ⟨-, hnodup, htags, hnext, hcues⟩ := h
  refine ⟨by simp; omega, ?_, ?_, Nat.mod_lt _ (by decide), hcues⟩
  · simp only [List.map_append, List.map_cons, List.map_nil, he]
    refine List.nodup_append.mpr ⟨hnodup, by simp, fun x hx y hy => ?_⟩
    obtain ⟨e', he', rfl⟩ := List.mem_map.mp hx
    rw [List.mem_singleton.mp hy]
    exact hfresh e' he'
  · intro e' he'
    rcases List.mem_append.mp he' with he' | he'
    · exact htags e' he'
    · rw [List.mem_singleton.mp he', he]
      exact hlt

@[simp] theorem chan_modPage? (n : Option Nat) (f : Page → Page) (c : Chan) : (t.modPage? n f).chan c = t.chan c := by
  cases n <;> rfl

theorem keeps_issue (c : Chan) (sel : Option Selected) (k : Keeps s t) : Keeps s (t.issue c sel) := by
  unfold State.issue
  dsimp only
  split
  · exact keeps_quiet (frame_modChanCounts (by decide) _ _ (Frame.refl _ t)) k
  · next hlen =>
    refine keeps_quiet (frame_fetchOut (by decide) _ (Frame.refl _ _)) (keeps_modChan _ _ (fun h => ?_)
      (keeps_quiet (frame_modPage? (by decide) _ _ (fun _ => by rfl)
        (frame_modPage? (by decide) _ _ (fun _ => by rfl) (Frame.refl _ t))) k))
    simp only [chan_modPage?] at h ⊢
    exact Channel.inRange_issued h (by omega) _ rfl _

theorem keeps_requestFor (c : Chan) (k : Keeps s t) : Keeps s (t.requestFor c) := by
  unfold State.requestFor
  repeat' split
  all_goals first
    | exact k
    | exact keeps_issue _ _ k
    | exact keeps_quiet (frame_modChanCounts (by decide) _ _ (Frame.refl _ t)) k

/-- The entry that a tag names, between the older and the newer ones (R138). -/
theorem splitTag_eq_some {tag : Nat} {l older newer : List FetchEntry} {e : FetchEntry}
    (h : splitTag tag l = some (older, e, newer)) : l = older ++ e :: newer ∧ e.tag = tag ∧ ∀ o ∈ older, o.tag ≠ tag := by
  induction l generalizing older with
  | nil => cases h
  | cons x rest ih =>
    unfold splitTag at h
    split at h
    · next hx =>
      cases h
      exact ⟨rfl, hx, by simp⟩
    · next hx =>
      obtain ⟨⟨older', e', newer'⟩, hr, heq⟩ := Option.map_eq_some_iff.mp h
      cases heq
      obtain ⟨hl, ht, ho⟩ := ih hr
      exact ⟨by rw [hl]; rfl, ht, by simpa [hx] using ho⟩

/-- The channel of a matched completion has one entry fewer, with the tags of the others (R140, R141). -/
theorem Channel.inRange_completed {ch ch' : Channel} {older newer older' : List FetchEntry} {e : FetchEntry}
    (h : ch.InRange) (hs : ch.inFlight = older ++ e :: newer) (hf : ch'.inFlight = older' ++ newer)
    (ho : older'.map (·.tag) = older.map (·.tag)) (hn : ch'.nextTag = ch.nextTag) (hq : ch'.cues = ch.cues) :
    ch'.InRange := by
  refine h.of_fewer ?_ hn (le_of_eq (congrArg _ hq))
  rw [hs, hf, List.map_append, List.map_append, ho, List.map_cons]
  exact (List.Sublist.refl _).append (List.sublist_cons_self _ _)

theorem keeps_fetchCompleted (c : Chan) (tag : Nat) (ok : Bool) (k : Keeps s t) : Keeps s (t.fetchCompleted c tag ok) := by
  unfold State.fetchCompleted
  split
  · exact keeps_quiet (frame_modChanCounts (by decide) _ _ (Frame.refl _ t)) k
  · next older e newer hsplit =>
    obtain ⟨hs, -, -⟩ := splitTag_eq_some hsplit
    have k' : Keeps s (t.releaseFetch e) := keeps_quiet (frame_releaseFetch (by decide) e (Frame.refl _ t)) k
    have hchan : (t.releaseFetch e).chan c = t.chan c := by simp [State.releaseFetch]
    have kOk : Keeps s ((t.releaseFetch e).modChan c (completeOk e older newer)) := by
      refine keeps_modChan _ _ (fun h => ?_) k'
      rw [hchan] at h ⊢
      unfold completeOk
      split
      · exact Channel.inRange_completed h hs rfl rfl rfl rfl
      · exact Channel.inRange_completed h hs rfl (by simp) rfl rfl
    have kFault : Keeps s ((t.releaseFetch e).modChan c (completeFault e older newer)) := by
      refine keeps_modChan _ _ (fun h => ?_) k'
      rw [hchan] at h ⊢
      exact Channel.inRange_completed h hs rfl rfl rfl rfl
    dsimp only
    repeat' split
    all_goals first
      | exact kOk
      | exact kFault
      | exact keeps_quiet (frame_raiseChanAlert (by decide) _ _ (Frame.refl _ _)) kFault

/-! ### Clips and playback -/

theorem keeps_leaveClip (c : Chan) (k : Keeps s t) : Keeps s (t.leaveClip c) :=
  keeps_table (frame_leaveClip (by decide) (by decide) (by decide) _ (Frame.refl _ t)) (tells_leaveClip _ (Tells.refl t)) k

theorem keeps_enterClip (c : Chan) (clip : Clip) (a : Angle) (pace : CuePace) (running : Bool) (k : Keeps s t) :
    Keeps s (t.enterClip c clip a pace running) :=
  keeps_table (frame_enterClip (by decide) (by decide) (by decide) (by decide) _ _ _ _ _ (Frame.refl _ t))
    (tells_enterClip _ _ _ _ _ (Tells.refl t)) k

theorem keeps_place (c : Chan) (h : Playhead) (k : Keeps s t) : Keeps s (t.place c h) :=
  keeps_quiet (frame_place (by decide) (by decide) _ _ (Frame.refl _ t)) k

theorem keeps_keyIgnored (j : Station) (k : Keeps s t) : Keeps s (t.keyIgnored j) :=
  keeps_quiet (frame_keyIgnored (by decide) _ (Frame.refl _ t)) k

theorem keeps_takeCues (c : Chan) (l : List Cue) (hl : l.length ≤ (t.chan c).cues.length) (k : Keeps s t) :
    Keeps s (t.takeCues c l).1 := by
  have hqueue : ∀ (rest : List Cue), rest.length ≤ (t.chan c).cues.length →
      Keeps s (t.modChan c fun ch => { ch with cues := rest }) := fun rest hrest =>
    keeps_modChan _ _ (fun h => h.of_fewer (List.Sublist.refl _) rfl hrest) k
  induction l generalizing t with
  | nil => exact hqueue [] (Nat.zero_le _)
  | cons q rest ih =>
    have hrest : rest.length ≤ (t.chan c).cues.length := Nat.le_of_succ_le hl
    unfold State.takeCues
    split
    · exact keeps_enterClip _ _ _ _ _ (hqueue rest hrest)
    · have hskip := frame_skipCue (m := [.channels, .links]) (by decide) (by decide) c (Frame.refl _ t)
      have hcues : ((t.skipCue c).chan c).cues = (t.chan c).cues := hskip .cues (by decide) c
      have k' : Keeps s (t.skipCue c) := keeps_quiet (frame_skipCue (by decide) (by decide) c (Frame.refl _ t)) k
      exact ih (by rw [hcues]; exact hrest) k' fun r hr =>
        keeps_modChan _ _ (fun h => h.of_fewer (List.Sublist.refl _) rfl hr) k'

theorem keeps_takeNextCue (c : Chan) (k : Keeps s t) : Keeps s (t.takeNextCue c).1 := keeps_takeCues c _ le_rfl k

theorem keeps_staged (c : Chan) (b : Bool) (k : Keeps s t) : Keeps s (t.modChan c fun ch => { ch with staged := b }) :=
  keeps_quiet (frame_modChan (by decide) _ _ (fun _ => by rfl) (fun _ => ⟨by rfl, by rfl⟩) (Frame.refl _ t)) k

theorem keeps_clipAdvance (c : Chan) (h : Playhead) (ctx : ClipContext) (clip : Clip) (k : Keeps s t) :
    Keeps s (t.clipAdvance c h ctx clip) := by
  unfold State.clipAdvance
  dsimp only
  repeat' split
  all_goals first
    | exact keeps_place _ _ k
    | skip
  unfold State.endBoundary
  have k' := keeps_takeNextCue c (keeps_staged c false k)
  dsimp only
  split
  · exact k'
  · exact keeps_place _ _ k'

theorem keeps_cueNext (c : Chan) (k : Keeps s t) : Keeps s (t.cueNext c).1 := by
  unfold State.cueNext
  split
  · exact keeps_staged c true k
  · exact keeps_takeNextCue c (keeps_staged c false k)

theorem keeps_goLive (c : Chan) (k : Keeps s t) : Keeps s (t.goLive c) := by
  unfold State.goLive
  split
  · exact k
  · exact keeps_place _ _ (keeps_leaveClip c k)

theorem keeps_loadRule (angle : Byte) (hf : BitVec 32) (c : Chan) (k : Keeps s t) : Keeps s (loadRule angle hf c t).1 := by
  unfold loadRule
  repeat' split
  all_goals first | exact k | exact keeps_place _ _ (keeps_leaveClip c k)

theorem keeps_loadClipRule (stn : Station) (id serial : BitVec 16) (angle : Byte) (pace : Pace) (c : Chan) (k : Keeps s t) :
    Keeps s (loadClipRule stn id serial angle pace c t).1 := by
  unfold loadClipRule
  dsimp only
  repeat' split
  all_goals first | exact k | exact keeps_enterClip _ _ _ _ _ k

theorem keeps_settleLevers (before : State) (k : Keeps s t) : Keeps s (t.settleLevers before) :=
  keeps_quiet (frame_settleLevers (by decide) (by decide) _ (Frame.refl _ t)) k

theorem keeps_enterIdle (c : Chan) (k : Keeps s t) : Keeps s (t.enterIdle c) := by
  unfold State.enterIdle
  split
  · exact k
  · dsimp only
    refine keeps_quiet (frame_modChan (by decide) _ _ (fun _ => by rfl) (fun _ => ⟨by rfl, by rfl⟩)
      (frame_movePin (by decide) _ _ ?_)) (keeps_leaveClip c k)
    split
    · exact frame_unlinkFollower (by decide) _ (Frame.refl _ _)
    · exact frame_breakGang (by decide) _ (Frame.refl _ _)

theorem keeps_joinGang (l : Chan) (fs : List Chan) (k : Keeps s t) : Keeps s (t.joinGang l fs) := by
  unfold State.joinGang
  refine keeps_quiet (frame_moveFollowers (by decide) (by decide) _
    (frame_modChan (by decide) _ _ (fun _ => by rfl) (fun _ => ⟨by rfl, by rfl⟩) (Frame.refl _ _))) ?_
  exact Keeps.foldl _ _ (fun u f hu => keeps_quiet
    (frame_modChan (by decide) _ _ (fun _ => by rfl) (fun _ => ⟨by rfl, by rfl⟩) (Frame.refl _ _)) (keeps_leaveClip f hu)) k

theorem keeps_gangRule (stn : Station) (leader : Byte) (fs : List Byte) (k : Keeps s t) :
    Keeps s (gangRule stn leader fs t).1 := by
  unfold gangRule
  repeat' split
  all_goals first | exact k | exact keeps_settleLevers _ (keeps_joinGang _ _ k)

theorem keeps_takeMarkIn (stn : Station) (k : Keeps s t) : Keeps s (t.takeMarkIn stn).1 :=
  keeps_table (frame_takeMarkIn (by decide) (by decide) _ (Frame.refl _ t)) (tells_takeMarkIn _ (Tells.refl t)) k

theorem keeps_takeMarkOut (stn : Station) (k : Keeps s t) : Keeps s (t.takeMarkOut stn).1 :=
  keeps_table (frame_takeMarkOut (by decide) (by decide) _ (Frame.refl _ t)) (tells_takeMarkOut _ (Tells.refl t)) k

theorem keeps_graceMarkOut (stn : Station) (k : Keeps s t) : Keeps s (t.graceMarkOut stn) :=
  keeps_table (frame_graceMarkOut (by decide) (by decide) _ (Frame.refl _ t)) (tells_graceMarkOut _ (Tells.refl t)) k

theorem keeps_editClip (c d : Clip) (k : Keeps s t) : Keeps s (t.editClip c d) :=
  keeps_table (frame_editClip (by decide) c d (Frame.refl _ t)) (tells_editClip c d (Tells.refl t)) k

theorem keeps_protectRule (wanted : Bool) (c : Clip) (k : Keeps s t) : Keeps s (protectRule wanted c t).1 :=
  keeps_table (frame_protectRule (by decide) (by decide) _ _ (Frame.refl _ t)) (tells_protectRule _ _ (Tells.refl t)) k

theorem keeps_deleteRule (c : Clip) (k : Keeps s t) : Keeps s (deleteRule c t).1 :=
  keeps_table (frame_deleteRule (by decide) (by decide) _ (Frame.refl _ t)) (tells_deleteRule _ (Tells.refl t)) k

theorem keeps_labelRule (text : List (BitVec 7)) (c : Clip) (k : Keeps s t) : Keeps s (labelRule text c t).1 := by
  unfold labelRule
  repeat' split
  all_goals first | exact k | exact keeps_editClip _ _ k

theorem keeps_tagAddRule (tag : Byte) (c : Clip) (k : Keeps s t) : Keeps s (tagAddRule tag c t).1 := by
  unfold tagAddRule
  repeat' split
  all_goals first | exact k | exact keeps_editClip _ _ k

theorem keeps_tagRemoveRule (tag : Byte) (c : Clip) (k : Keeps s t) : Keeps s (tagRemoveRule tag c t).1 := by
  unfold tagRemoveRule
  repeat' split
  all_goals first | exact k | exact keeps_editClip _ _ k

theorem keeps_heroRule (angle : Byte) (c : Clip) (k : Keeps s t) : Keeps s (heroRule angle c t).1 := by
  unfold heroRule
  repeat' split
  all_goals first | exact k | exact keeps_editClip _ _ k

/-! ### Links (R161 to R165, R180) -/

/-- A link that enters DOWN or OFF has that state; the other states, and every enable, stand. -/
theorem link_enterSession (j i : Station) (x : LinkState) :
    ((t.enterSession j x).link i).state = (if i = j then x else (t.link i).state) ∧
      ((t.enterSession j x).link i).enabled = (t.link i).enabled := by
  obtain ⟨hs, he⟩ := frame_settleLevers (m := [.channels, .pages]) (by decide) (by decide) t
    (Frame.refl _ (t.modLink j fun l => { l.session with state := x })) .linkStates (by decide) i
  unfold State.enterSession
  rw [hs, he, link_modLink]
  split <;> exact ⟨rfl, rfl⟩

theorem keeps_enterSession (j : Station) (x : LinkState)
    (hx : (t.link j).InRange j → ((t.link j).enabled = true ↔ x ≠ .off)) (k : Keeps s t) : Keeps s (t.enterSession j x) := by
  refine keeps_linkStates (frame_enterSession (by decide) (by decide) (by decide) (by decide) _ _ (Frame.refl _ t))
    (fun i hi => ?_) k
  obtain ⟨hs, he⟩ := link_enterSession (t := t) j i x
  unfold Link.InRange
  rw [hs, he]
  split
  · next e => subst e; exact ⟨hx hi, hi.2⟩
  · exact hi

/-- The release of a station's claims leaves the states and the enables of the links alone. -/
theorem link_releaseStation (j i : Station) :
    ((t.releaseStation j).link i).state = (t.link i).state ∧ ((t.releaseStation j).link i).enabled = (t.link i).enabled :=
  frame_releaseStation (m := [.claims, .channels, .pages, .links]) (by decide) (by decide) (by decide) (by decide) j
    (Frame.refl _ t) .linkStates (by decide) i

theorem keeps_releaseStation (j : Station) (k : Keeps s t) : Keeps s (t.releaseStation j) :=
  keeps_quiet (frame_releaseStation (by decide) (by decide) (by decide) (by decide) _ (Frame.refl _ t)) k

theorem keeps_loseLink (j : Station) (k : Keeps s t) : Keeps s (t.loseLink j) := by
  unfold State.loseLink
  dsimp only
  split
  · next h =>
    refine keeps_quiet (frame_pauseStation (by decide) (by decide) _ (Frame.refl _ _)) (keeps_modLink _ _ (fun hl => ?_) k)
    have hup : (t.link j).state = .up := by simp_all
    have he : (t.link j).enabled = true := hl.1.mpr (by simp [hup])
    exact ⟨by simp [he], hl.2⟩
  · exact k

theorem keeps_expireGrace (j : Station) (k : Keeps s t) : Keeps s (t.expireGrace j) := by
  unfold State.expireGrace
  dsimp only
  split
  · next h =>
    refine keeps_quiet (frame_modLinkCounts (by decide) _ _ (Frame.refl _ _)) (keeps_enterSession _ _ (fun hl => ?_)
      (keeps_graceMarkOut _ (keeps_releaseStation _ k)))
    obtain ⟨hs, -⟩ := frame_graceMarkOut (m := [.pages, .clips]) (by decide) (by decide) j
      (Frame.refl _ (t.releaseStation j)) .linkStates (by decide) j
    have hlost : (t.link j).state = .lost := by simp_all
    rw [(link_releaseStation j j).1, hlost] at hs
    have he := hl.1.mpr (by simp [hs])
    simp [he]
  · exact k

theorem keeps_watchLink (j : Station) (k : Keeps s t) : Keeps s (t.watchLink j) := by
  unfold State.watchLink
  dsimp only
  repeat' split
  all_goals first
    | exact k
    | exact keeps_loseLink _ k
    | exact keeps_expireGrace _ k
    | exact keeps_quiet (frame_modLink (by decide) _ _ (fun _ => ⟨by rfl, by rfl⟩) (Frame.refl _ t)) k

/-- What LINK SET does to the state and the enable of a link (R161). -/
theorem link_setEnable (j i : Station) (e : Bool) :
    ((t.setEnable j e).link i).state =
        (if i = j then (if e = (t.link j).enabled then (t.link j).state else if e then .down else .off)
          else (t.link i).state) ∧
      ((t.setEnable j e).link i).enabled = if i = j then e else (t.link i).enabled := by
  unfold State.setEnable
  split
  · next he =>
    obtain ⟨hs, hen⟩ := link_enterSession (t := t.releaseStation j) j i .off
    obtain ⟨hs', hen'⟩ := link_releaseStation (t := t) j i
    unfold State.disableLink
    rw [link_modLink]
    split
    · next e => subst e; simp [hs, he]
    · next hne => exact ⟨by simp [hs, hne, hs'], by simp [hen, hen']⟩
  · next he =>
    obtain ⟨hs, hen⟩ := link_enterSession (t := t) j i .down
    rw [link_modLink]
    split
    · next e => subst e; simp [hs, he]
    · next hne => exact ⟨by simp [hs, hne], hen⟩
  · next b _ _ h0 h1 =>
    have he : b = (t.link j).enabled := by
      cases b <;> cases hen : (t.link j).enabled <;> simp_all
    split
    · next e => subst e; simp [he]
    · exact ⟨rfl, rfl⟩

theorem keeps_setEnable (j : Station) (e : Bool) (h0 : j = 0 → e = true) (k : Keeps s t) : Keeps s (t.setEnable j e) := by
  refine keeps_linkStates (frame_setEnable (by decide) (by decide) (by decide) (by decide) (by decide) _ _ (Frame.refl _ t))
    (fun i hi => ?_) k
  obtain ⟨hs, hen⟩ := link_setEnable (t := t) j i e
  unfold Link.InRange
  rw [hs, hen]
  split
  · next hij =>
    subst hij
    refine ⟨?_, h0⟩
    obtain ⟨hiff, -⟩ := hi
    cases he : (t.link i).enabled <;> cases e <;> simp_all
  · exact hi

theorem keeps_linkSetRule (j e d : Byte) (k : Keeps s t) : Keeps s (linkSetRule j e d t).1 := by
  unfold linkSetRule
  dsimp only
  split
  · exact k
  split
  · exact k
  split
  · exact k
  · next i _ _ h0 =>
    refine keeps_quiet (frame_modLink (by decide) _ _ (fun _ => ⟨by rfl, by rfl⟩) (Frame.refl _ _))
      (keeps_setEnable _ _ (fun hi => ?_) k)
    exact bne_iff_ne.mpr fun he => h0 ⟨hi, he⟩

/-! ### The house frame event -/

theorem keeps_advance (c : Chan) (k : Keeps s t) : Keeps s (t.advance c) := by
  unfold State.advance
  repeat' split
  all_goals first
    | exact k
    | exact keeps_place _ _ k
    | exact keeps_quiet (frame_moveHead (by decide) (by decide) _ _ (Frame.refl _ t)) k
    | exact keeps_clipAdvance _ _ _ _ k

theorem keeps_channelWork (c : Chan) (w : State × List Chan) (k : Keeps s w.1) : Keeps s (channelWork c w).1 := by
  unfold channelWork
  dsimp only
  split
  · exact k
  · exact Keeps.foldl _ _ (fun _ _ hu => keeps_requestFor _ hu) (keeps_advance _ k)

theorem keeps_react (w : State × List Chan) (r : Reaction) (k : Keeps s w.1) : Keeps s (react w r).1 := by
  cases r <;> simp only [react]
  case recorder => exact keeps_quiet (frame_recorderWork (by decide) (by decide) (by decide) (Frame.refl _ _)) k
  case channel c => exact keeps_channelWork c w k
  case arbiter => exact keeps_quiet (frame_arbiterWork (by decide) (by decide) (by decide) (by decide) (Frame.refl _ _)) k
  case linkWatch j => exact keeps_watchLink j k
  case linkReport j => exact keeps_quiet (frame_reportWork (by decide) (by decide) _ (Frame.refl _ _)) k

theorem Keeps.foldl_work {α : Type} (l : List α) (f : State × List Chan → α → State × List Chan)
    (hf : ∀ w a, Keeps s w.1 → Keeps s (f w a).1) (w : State × List Chan) (k : Keeps s w.1) : Keeps s (l.foldl f w).1 := by
  induction l generalizing w with
  | nil => exact k
  | cons a l ih => exact ih _ (hf w a k)

theorem keeps_houseFrame (order : List Reaction) (k : Keeps s t) : Keeps s (t.houseFrame order) :=
  Keeps.foldl_work _ _ (fun w c hw => keeps_channelWork c w hw) _
    (Keeps.foldl_work _ _ (fun w r hw => keeps_react w r hw) _
      (keeps_quiet (frame_timeBase (by decide) _ (Frame.refl _ t)) k))

theorem keeps_modTime (f : TimeBase → TimeBase) (k : Keeps s t) : Keeps s (t.modTime f) :=
  keeps_quiet (frame_modTime (by decide) f (Frame.refl _ t)) k

theorem keeps_giveEvent (moment : Nat) (order : List Reaction) (k : Keeps s t) : Keeps s (t.giveEvent moment order) :=
  keeps_houseFrame _ (keeps_modTime _ k)

theorem keeps_timerGives (moment : Nat) (order : List Reaction) (k : Keeps s t) : Keeps s (t.timerGives moment order) :=
  keeps_giveEvent _ _ (keeps_modTime _ k)

theorem keeps_relock (moment : Nat) (order : List Reaction) (k : Keeps s t) : Keeps s (t.relock moment order) := by
  unfold State.relock
  dsimp only
  split
  · exact keeps_giveEvent _ _ (keeps_modTime _ k)
  · exact keeps_modTime _ k

theorem keeps_pulse (moment : Nat) (order : List Reaction) (k : Keeps s t) : Keeps s (t.pulse moment order) := by
  unfold State.pulse
  split
  · exact keeps_giveEvent _ _ (keeps_modTime _ k)
  split
  · split
    · exact keeps_relock _ _ k
    · exact keeps_modTime _ k
  · exact keeps_modTime _ k

theorem keeps_loseReference (order : List Reaction) (k : Keeps s t) : Keeps s (t.loseReference order) := by
  unfold State.loseReference
  split
  · exact keeps_giveEvent _ _ (keeps_modTime _ k)
  · exact k

theorem keeps_startHouseRate (stn : Station) (x : BitVec 16) (moment : Nat) (order : List Reaction) (k : Keeps s t) :
    Keeps s (startHouseRate stn x moment order t) := by
  unfold startHouseRate
  dsimp only
  have k' := keeps_startCommand stn .houseRate true (houseRateRule x)
    (fun _ u hu => keeps_quiet (frame_houseRateRule (by decide) _ (Frame.refl _ u)) hu) k
  split
  · exact keeps_timerGives _ _ k'
  · exact k'

/-! ### Routing, the curve and RESTART -/

theorem keeps_cutRule (c : Chan) (k : Keeps s t) : Keeps s (cutRule c t).1 := by
  unfold cutRule
  dsimp only
  split
  · exact k
  · refine keeps_arbiter _ (fun _ => ?_) k
    dsimp only
    split
    · fin_cases c <;> decide
    · next h => exact fun e => h e.symm

theorem keeps_previewRule (c : Chan) (k : Keeps s t) : Keeps s (previewRule c t).1 := by
  unfold previewRule
  split
  · exact k
  split
  · exact k
  · next h => exact keeps_arbiter _ (fun _ => h) k

theorem keeps_swapRoutes (k : Keeps s t) : Keeps s t.swapRoutes := keeps_arbiter _ (fun h e => h e.symm) k

end Sys2Proof.Machine
end

section
/-! PROOFS. Proofs/Invariants.lean: what every command keeps, assembled from what its operations keep (Proofs/Keeping.lean):
the limits of the control side, the place of every page, and one rise of the table generation in an event. -/

namespace Sys2Proof.Machine

variable {s t u : State}

/-! ### The lever curve (R89, R179) -/

theorem isAscending_getD {points : List Int} (h : isAscending points = true) {i : Nat} (hi : i + 1 < points.length) :
    points.getD i 0 ≤ points.getD (i + 1) 0 := by
  induction points generalizing i with
  | nil => simp at hi
  | cons a rest ih =>
    cases rest with
    | nil => simp at hi
    | cons b rest =>
      simp only [isAscending, Bool.and_eq_true, decide_eq_true_eq] at h
      cases i with
      | zero => exact h.1
      | succ i => exact ih h.2 (by simpa using hi)

theorem curveTaken_get (points : List Int) (i : Fin 11) :
    (curveTaken points).get i = min 2880 (points.getD i.val 0).toNat := vector_ofFn_get ..

/-- Eleven points that pass the checks of R179 make a curve that meets R89. -/
theorem curveInRange_curveTaken {points : List Int} (h : curveFits points = true) (hl : points.length = 11) :
    CurveInRange (curveTaken points) := by
  simp only [curveFits, Bool.and_eq_true, decide_eq_true_eq] at h
  obtain ⟨⟨-, hhead⟩, hasc⟩ := h
  refine ⟨?_, fun i => ?_, fun i => ?_⟩
  · obtain ⟨rest, rfl⟩ := List.head?_eq_some_iff.mp hhead
    rw [curveTaken_get]
    rfl
  · have hle := isAscending_getD hasc (i := i.val) (by omega)
    have hc : (i.castSucc : Fin 11).val = i.val := rfl
    have hs : (i.succ : Fin 11).val = i.val + 1 := rfl
    rw [curveTaken_get, curveTaken_get, hc, hs]
    omega
  · rw [curveTaken_get]
    omega

theorem keeps_startCurveSet (stn : Station) (points : List (BitVec 16)) (k : Keeps s t) :
    Keeps s (startCurveSet stn points t) := by
  refine keeps_startCommand _ _ _ _ (fun hf u hu => ?_) k
  unfold curveSetRule
  split
  · next hfits => exact keeps_curve _ (curveInRange_curveTaken hfits (by simpa using hf)) hu
  · exact hu

/-! ### RESTART (R183) -/

theorem channel_inRange_restart {ch : Channel} (h : ch.InRange) : ch.restart.InRange :=
  h.of_fewer (List.nil_sublist _) rfl (Nat.zero_le _)

theorem link_inRange_restart {j : Station} {l : Link} (h : l.InRange j) : (Link.restart j l).InRange j := by
  unfold Link.restart
  split
  · next he => exact ⟨by simp [Link.session, he], fun _ => he⟩
  · exact h

theorem keeps_restart (k : Keeps s t) : Keeps s t.restart := by
  unfold State.restart
  refine Keeps.foldl _ _ (fun _ j hu => keeps_modLink j _ link_inRange_restart hu) ?_
  refine keeps_arbiter _ (fun _ => by decide) ?_
  refine keeps_of_frame (m := [.channels, .cues, .fetches]) (frame_restartChannels (by decide) (by decide) (by decide)
    (Frame.refl _ _)) (.inl (by decide)) (.inl (by decide)) (.inl (by decide)) (.inr fun c hc => ?_) (.inl (by decide))
    (.inl (by decide)) ?_
  · have hchan : ∀ u : State, u.restartChannels.chan c = (u.chan c).restart := fun u => vector_map_get ..
    rw [hchan]
    exact channel_inRange_restart hc
  · refine keeps_quiet (frame_withdrawFetches (by decide) (frame_clearPins (by decide) (Frame.refl _ _))) ?_
    exact Keeps.foldl _ _ (fun _ c hu => keeps_leaveClip c hu) k

/-! ### Command rows -/

/-- A row whose parts bear no limit keeps what the parts keep. -/
theorem keeps_quietRow (i : Instr) (hq : ∀ p ∈ touches i, p ∈ quietParts) (k : Keeps s t) : Keeps s (startRow i t) :=
  keeps_quiet ((frame_startRow_touches i (Frame.refl _ t)).mono hq) k

theorem keeps_startCueAdd (stn : Station) (channel : Byte) (id serial : BitVec 16) (angle : Byte) (pace : Pace)
    (k : Keeps s t) : Keeps s (startCueAdd stn channel id serial angle pace t) := by
  refine keeps_startCommand _ _ _ _ (fun _ u hu => ?_) k
  split
  · exact hu
  · refine keeps_onChannel _ _ _ (fun c v hv => ?_) hu
    unfold cueAddRule
    split
    · exact hv
    · next hroom =>
      refine keeps_modChan _ _ (fun h => ?_) hv
      obtain ⟨hlen, hnodup, htags, hnext, -⟩ := h
      refine ⟨hlen, hnodup, htags, hnext, ?_⟩
      simp only [cueCapacity] at hroom
      simp
      omega

theorem keeps_startCueClear (stn : Station) (channel : Byte) (k : Keeps s t) : Keeps s (startCueClear stn channel t) :=
  keeps_startCommand _ _ _ _ (fun _ _ hu => keeps_onChannel _ _ _ (fun _ _ hv =>
    keeps_modChan _ _ (fun h => h.of_fewer (List.Sublist.refl _) rfl (Nat.zero_le _)) hv) hu) k

theorem keeps_startCueNext (stn : Station) (channel : Byte) (k : Keeps s t) : Keeps s (startCueNext stn channel t) := by
  refine keeps_startCommand _ _ _ _ (fun _ _ hu => keeps_onChannel _ _ _ (fun c v hv => ?_) hu) k
  split
  · exact hv
  · exact keeps_cueNext _ hv

theorem keeps_startLoadClip (stn : Station) (channel : Byte) (id serial : BitVec 16) (angle : Byte) (pace : Pace)
    (k : Keeps s t) : Keeps s (startLoadClip stn channel id serial angle pace t) := by
  refine keeps_startCommand _ _ _ _ (fun _ u hu => ?_) k
  split
  · exact hu
  · exact keeps_onChannel _ _ _ (fun _ _ hv => keeps_loadClipRule _ _ _ _ _ _ hv) hu

theorem keeps_startTake (stn : Station) (k : Keeps s t) : Keeps s (startTake stn t) := by
  refine keeps_startCommand _ _ _ _ (fun _ u hu => ?_) k
  split
  · exact keeps_swapRoutes hu
  · exact hu

theorem keeps_startAngleSet (stn : Station) (a x : Byte) (q : BitVec 16) (k : Keeps s t) :
    Keeps s (startAngleSet stn a x q t) := by
  refine keeps_startCommand _ _ _ _ (fun _ _ hu => keeps_onAngle _ _ (fun b v hv => ?_) hu) k
  split
  · exact hv
  · exact keeps_angleSetRule _ _ _ hv

section Starts

variable (stn : Station) (id serial : BitVec 16) (channel : Byte) (k : Keeps s t)
include k

theorem keeps_startMarkIn : Keeps s (startMarkIn stn t) :=
  keeps_startCommand _ _ _ _ (fun _ _ hu => keeps_takeMarkIn _ hu) k

theorem keeps_startMarkOut : Keeps s (startMarkOut stn t) :=
  keeps_startCommand _ _ _ _ (fun _ _ hu => keeps_takeMarkOut _ hu) k

theorem keeps_startProtect : Keeps s (startProtect stn id serial t) :=
  keeps_startCommand _ _ _ _ (fun _ _ hu => keeps_onClip _ _ _ _ (fun _ _ hv => keeps_protectRule _ _ hv) hu) k

theorem keeps_startUnprotect : Keeps s (startUnprotect stn id serial t) :=
  keeps_startCommand _ _ _ _ (fun _ _ hu => keeps_onClip _ _ _ _ (fun _ _ hv => keeps_protectRule _ _ hv) hu) k

theorem keeps_startDelete : Keeps s (startDelete stn id serial t) :=
  keeps_startCommand _ _ _ _ (fun _ _ hu => keeps_onClip _ _ _ _ (fun _ _ hv => keeps_deleteRule _ hv) hu) k

theorem keeps_startLabel (text : List (BitVec 7)) : Keeps s (startLabel stn id serial text t) :=
  keeps_startCommand _ _ _ _ (fun _ _ hu => keeps_onClip _ _ _ _ (fun _ _ hv => keeps_labelRule _ _ hv) hu) k

theorem keeps_startTagAdd (tag : Byte) : Keeps s (startTagAdd stn id serial tag t) :=
  keeps_startCommand _ _ _ _ (fun _ _ hu => keeps_onClip _ _ _ _ (fun _ _ hv => keeps_tagAddRule _ _ hv) hu) k

theorem keeps_startTagRemove (tag : Byte) : Keeps s (startTagRemove stn id serial tag t) :=
  keeps_startCommand _ _ _ _ (fun _ _ hu => keeps_onClip _ _ _ _ (fun _ _ hv => keeps_tagRemoveRule _ _ hv) hu) k

theorem keeps_startHero (angle : Byte) : Keeps s (startHero stn id serial angle t) :=
  keeps_startCommand _ _ _ _ (fun _ _ hu => keeps_onClip _ _ _ _ (fun _ _ hv => keeps_heroRule _ _ hv) hu) k

theorem keeps_startLive : Keeps s (startLive stn channel t) :=
  keeps_startCommand _ _ _ _ (fun _ _ hu => keeps_onChannel _ _ _ (fun c _ hv =>
    keeps_onLeader _ (fun _ _ hw => keeps_goLive _ hw) c hv) hu) k

theorem keeps_startLoad (angle : Byte) (hf : BitVec 32) : Keeps s (startLoad stn channel angle hf t) :=
  keeps_startCommand _ _ _ _ (fun _ _ hu => keeps_onChannel _ _ _ (fun _ _ hv => keeps_loadRule _ _ _ hv) hu) k

theorem keeps_startUnload : Keeps s (startUnload stn channel t) :=
  keeps_startCommand _ _ _ _ (fun _ _ hu => keeps_onChannel _ _ _ (fun _ _ hv =>
    keeps_settleLevers _ (keeps_enterIdle _ hv)) hu) k

theorem keeps_startGang (fs : List Byte) : Keeps s (startGang stn channel fs t) :=
  keeps_startCommand _ _ _ _ (fun _ _ hu => keeps_gangRule _ _ _ hu) k

theorem keeps_startCut : Keeps s (startCut stn channel t) :=
  keeps_startCommand _ _ _ _ (fun _ _ hu => keeps_onRoute _ _ _ (fun _ _ hv => keeps_cutRule _ hv) hu) k

theorem keeps_startPreview : Keeps s (startPreview stn channel t) :=
  keeps_startCommand _ _ _ _ (fun _ _ hu => keeps_onRoute _ _ _ (fun _ _ hv => keeps_previewRule _ hv) hu) k

theorem keeps_startLinkSet (j e d : Byte) : Keeps s (startLinkSet stn j e d t) :=
  keeps_startCommand _ _ _ _ (fun _ _ hu => keeps_linkSetRule _ _ _ hu) k

theorem keeps_startRestart : Keeps s (startRestart stn t) :=
  keeps_startCommand _ _ _ _ (fun _ _ hu => keeps_restart hu) k

end Starts

/-- The start of every command row keeps the limits, the places of the pages and the account of the generation. -/
theorem keeps_startRow (i : Instr) (k : Keeps s t) : Keeps s (startRow i t) := by
  cases i
  case markIn => exact keeps_startMarkIn _ k
  case markOut => exact keeps_startMarkOut _ k
  case protect => exact keeps_startProtect _ _ _ k
  case unprotect => exact keeps_startUnprotect _ _ _ k
  case delete => exact keeps_startDelete _ _ _ k
  case label => exact keeps_startLabel _ _ _ k _
  case tagAdd => exact keeps_startTagAdd _ _ _ k _
  case tagRemove => exact keeps_startTagRemove _ _ _ k _
  case hero => exact keeps_startHero _ _ _ k _
  case live => exact keeps_startLive _ _ k
  case load => exact keeps_startLoad _ _ k _ _
  case unload => exact keeps_startUnload _ _ k
  case gang => exact keeps_startGang _ _ k _
  case loadClip => exact keeps_startLoadClip _ _ _ _ _ _ k
  case cueAdd => exact keeps_startCueAdd _ _ _ _ _ _ k
  case cueClear => exact keeps_startCueClear _ _ k
  case cueNext => exact keeps_startCueNext _ _ k
  case cut => exact keeps_startCut _ _ k
  case preview => exact keeps_startPreview _ _ k
  case take => exact keeps_startTake _ k
  case angleSet => exact keeps_startAngleSet _ _ _ _ k
  case houseRate => exact keeps_startHouseRate _ _ _ _ k
  case curveSet => exact keeps_startCurveSet _ _ k
  case linkSet => exact keeps_startLinkSet _ k _ _ _
  case restart => exact keeps_startRestart _ k
  case play | pause | angle | ungang | black | unblack | claim | cancel | release | forceRelease | select | list | recStart
      | recStop | stationSet | statsTimeBase | statsRecorder | statsPageStore | statsChannel | statsLink =>
    exact keeps_quietRow _ (by simp [touches, headParts, startParts, quietParts]) k
  all_goals exact k

/-! ### Desk frames -/

theorem keeps_markKey (j : Station) (r : State × Reply) (k : Keeps s r.1) : Keeps s (markKey j r) := by
  unfold markKey
  split
  · exact keeps_keyIgnored _ k
  · exact k

theorem keeps_targetKey (j : Station) (f : Chan → State → State) (hf : ∀ c u, Keeps s u → Keeps s (f c u))
    (k : Keeps s t) : Keeps s (t.targetKey j f) := by
  unfold State.targetKey
  repeat' split
  all_goals first | exact keeps_keyIgnored _ k | exact hf _ _ k

theorem keeps_takeKey (j : Station) (k : Keeps s t) : Keeps s (t.takeKey j) := by
  unfold State.takeKey
  split
  · exact keeps_swapRoutes k
  · exact keeps_keyIgnored _ k

theorem keeps_cueNextKey (j : Station) (k : Keeps s t) : Keeps s (t.cueNextKey j) := by
  unfold State.cueNextKey
  split
  · exact keeps_keyIgnored _ k
  · dsimp only
    split
    · exact keeps_keyIgnored _ (keeps_cueNext _ k)
    · exact keeps_cueNext _ k

theorem keeps_angleNextKey (j : Station) (k : Keeps s t) : Keeps s (t.angleNextKey j) := by
  unfold State.angleNextKey
  repeat' split
  all_goals first | exact keeps_keyIgnored _ k | exact keeps_place _ _ k

theorem keeps_keyAction (j : Station) (i : Fin 8) (k : Keeps s t) : Keeps s (t.keyAction j i) := by
  unfold State.keyAction
  split
  · exact keeps_markKey _ _ (keeps_takeMarkIn _ k)
  · exact keeps_markKey _ _ (keeps_takeMarkOut _ k)
  · exact keeps_targetKey _ _ (fun _ _ hu => keeps_quiet (frame_play (by decide) (by decide) (by decide) _ _ _
      (frame_disarm (by decide) _ _ (Frame.refl _ _))) hu) k
  · exact keeps_targetKey _ _ (fun _ _ hu => keeps_quiet (frame_pause (by decide) (by decide) _ (Frame.refl _ _)) hu) k
  · exact keeps_targetKey _ _ (fun _ _ hu => keeps_goLive _ hu) k
  · exact keeps_takeKey _ k
  · exact keeps_cueNextKey _ k
  · exact keeps_angleNextKey _ k

theorem keeps_startMessage (j : Station) (moment : Nat) (order : List Reaction) (message : List Byte) (k : Keeps s t) :
    Keeps s (startMessage j moment order message t) := by
  unfold startMessage
  split
  · exact k
  split
  · exact keeps_quiet (frame_startUnknown (by decide) _ _ (Frame.refl _ t)) k
  split
  · exact keeps_startRow _ k
  · exact keeps_startCommand _ _ _ _ (fun _ _ hu => hu) k
  · exact keeps_startCommand _ _ _ _ (fun _ _ hu => hu) k

theorem keeps_handshake (j : Station) (moment : Nat) (order : List Reaction) (f : DeskFrame) (k : Keeps s t) :
    Keeps s (t.handshake j moment order f) := by
  have k' : ∀ g : Link → Link, (∀ l, (g l).state = l.state ∧ (g l).enabled = l.enabled) → Keeps s (t.modLink j g) :=
    fun g hg => keeps_quiet (frame_modLink (by decide) _ _ hg (Frame.refl _ t)) k
  unfold State.handshake
  dsimp only
  split
  · exact k' _ fun _ => ⟨rfl, rfl⟩
  split
  · exact k
  split
  · exact k
  · exact keeps_startMessage _ _ _ _ (k' _ fun _ => ⟨rfl, rfl⟩)

/-- The lever work may take a lever target out of its clip (R92). -/
theorem keeps_leverWork (j : Station) (lever : Int) (k : Keeps s t) : Keeps s (t.leverWork j lever) := by
  have k' : ∀ g : Link → Link, (∀ l, (g l).state = l.state ∧ (g l).enabled = l.enabled) → Keeps s (t.modLink j g) :=
    fun g hg => keeps_quiet (frame_modLink (by decide) _ _ hg (Frame.refl _ t)) k
  have hengage : ∀ u c speed, Keeps s u → Keeps s (State.engage u c speed) := fun u c speed hu => by
    unfold State.engage
    repeat' split
    all_goals first
      | exact hu
      | exact keeps_quiet (frame_steer (by decide) (by decide) _ _ (Frame.refl _ _)) (keeps_leaveClip _ hu)
  unfold State.leverWork
  dsimp only
  split
  · exact k' _ fun _ => ⟨rfl, rfl⟩
  · refine keeps_quiet (frame_shuttleSpeed (by decide) (by decide) _ _ (Frame.refl _ _)) ?_
    split
    · split
      · exact hengage _ _ _ (k' _ fun _ => ⟨rfl, rfl⟩)
      · exact k' _ fun _ => ⟨rfl, rfl⟩
    · exact keeps_quiet (frame_pauseShuttle (by decide) (by decide) _ (Frame.refl _ _)) (k' _ fun _ => ⟨rfl, rfl⟩)
    · exact k' _ fun _ => ⟨rfl, rfl⟩

/-- What an accepted frame does after its link has taken it. -/
theorem keeps_acceptFrame (j : Station) (moment : Nat) (order : List Reaction) (f : DeskFrame)
    (k : Keeps s (t.modLink j fun l => l.accept f)) : Keeps s (t.acceptFrame j moment order f) :=
  keeps_handshake _ _ _ _ (Keeps.foldl _ _ (fun _ _ hu => keeps_keyAction _ _ hu)
    (keeps_quiet (frame_jogWork (by decide) (by decide) (by decide) _ _ (Frame.refl _ _)) (keeps_leverWork _ _ k)))

/-- A frame is accepted on a link that is not in OFF, which becomes UP (R163). -/
theorem keeps_acceptFrame_of_on {j : Station} (hs : (t.link j).state ≠ .off) (moment : Nat) (order : List Reaction)
    (f : DeskFrame) : Keeps t (t.acceptFrame j moment order f) := by
  refine keeps_acceptFrame _ _ _ _ (keeps_modLink _ _ (fun h => ?_) (Keeps.refl t))
  have he := h.1.mpr hs
  exact ⟨by simp [Link.accept, he], h.2⟩

/-! ### Events -/

/-- The account that a whole event gives of the table generation (R62). -/
def RaisesOnce (s t : State) : Prop :=
  (t.clips.generation = s.clips.generation ∨ t.clips.generation = (s.clips.generation + 1) % 65536) ∧
    (t.tableFields ≠ s.tableFields → t.clips.generation = (s.clips.generation + 1) % 65536)

/-- What a command keeps of the state it is taken in. -/
structure Kept (s t : State) : Prop where
  within : s.Within → t.Within
  placed : s.PagesPlaced → t.PagesPlaced
  raised : s.clips.raised = false → t.clips.raised = false

theorem Kept.refl (s : State) : Kept s s := ⟨id, id, id⟩

theorem Kept.trans (h : Kept s t) (k : Kept t u) : Kept s u :=
  ⟨k.within ∘ h.within, k.placed ∘ h.placed, k.raised ∘ h.raised⟩

theorem RaisesOnce.of_clips (h : t.clips = s.clips) : RaisesOnce s t := by
  simp [RaisesOnce, State.tableFields, h]

/-- A change outside the clip table. -/
theorem Kept.of_clips (h : Keeps s t) (he : t.clips = s.clips) : Kept s t := ⟨h.within, h.placed, by rw [he]; exact id⟩

/-- The mark of an event on the clip table bears no limit. -/
theorem within_clips (x : ClipTable) (h : s.Within) : ({ s with clips := x } : State).Within :=
  ⟨h.routes, h.links, h.chans, h.curve⟩

theorem Kept.of_event {f : State → State} (h : Keeps s.atEvent (f s.atEvent)) : Kept s (s.inEvent f) :=
  ⟨fun w => within_clips _ (h.within (within_clips _ w)), h.placed, fun _ => rfl⟩

theorem RaisesOnce.of_event {f : State → State} (h : Tells s.atEvent (f s.atEvent)) : RaisesOnce s (s.inEvent f) :=
  Tells.of_event (t := f s.atEvent) h

/-- A command whose frame spares the clip table and every limit. -/
theorem kept_of_quiet {i : Instr} (h : exec i s = .next t) (hq : ∀ p ∈ touches i, p ∈ quietParts) :
    Kept s t ∧ RaisesOnce s t := by
  have hf := (frame_exec h).mono hq
  have hc : t.clips = s.clips := hf .clips (by decide)
  exact ⟨.of_clips (keeps_quiet hf (Keeps.refl s)) hc, .of_clips hc⟩

/-- A command that is one event of the clip table. -/
theorem kept_of_act_event {f : State → State} (hf : ∀ u, Keeps u (f u)) (h : act (fun u => u.inEvent f) s = .next t) :
    Kept s t ∧ RaisesOnce s t := by
  unfold act at h
  cases h
  split
  · exact ⟨Kept.refl s, .of_clips rfl⟩
  · exact ⟨.of_event (hf _), .of_event (hf _).tells⟩

/-- A command that leaves the clip table alone. -/
theorem kept_of_keeps {i : Instr} (hc : .clips ∉ touches i) (h : exec i s = .next t) (hk : Keeps s t) :
    Kept s t ∧ RaisesOnce s t := by
  have hclips : t.clips = s.clips := frame_exec h .clips hc
  exact ⟨.of_clips hk hclips, .of_clips hclips⟩

theorem keeps_act {f : State → State} (hf : Keeps s (f s)) (h : act f s = .next t) : Keeps s t := by
  unfold act at h
  cases h
  split
  · exact Keeps.refl s
  · exact hf

theorem kept_row {i : Instr} {k : Station} (hi : i.sender = some k) (h : exec i s = .next t) :
    Kept s t ∧ RaisesOnce s t := by
  rcases exec_row hi s with ⟨hc, he⟩ | ⟨-, he⟩
  · exact kept_of_keeps hc h (keeps_act (keeps_startRow i (Keeps.refl s)) (he ▸ h))
  · exact kept_of_act_event (fun u => keeps_startRow i (Keeps.refl u)) (he ▸ h)

theorem keeps_scanVisit (k : Keeps s t) : Keeps s t.scanVisit :=
  keeps_table (frame_scanVisit (by decide) (by decide) (Frame.refl _ t)) (tells_scanVisit (Tells.refl t)) k

/-- An event that is one command, is no reset and brings no bytes of a desk frame. -/
theorem kept_event {i : Instr} (hi : i.sender = none) (hr : ∀ moment, i ≠ .hardwareReset moment)
    (hd : ∀ k bytes moment order, i ≠ .deskFrame k bytes moment order)
    (hg : ∀ k moment order, i ≠ .interbyteTimeout k moment order) (h : exec i s = .next t) :
    Kept s t ∧ RaisesOnce s t := by
  cases i
  case hardwareReset => exact absurd rfl (hr _)
  case deskFrame => exact absurd rfl (hd _ _ _ _)
  case interbyteTimeout => exact absurd rfl (hg _ _ _)
  case referencePulse moment order => exact kept_of_act_event (fun u => keeps_pulse moment order (Keeps.refl u)) h
  case timerEvent order =>
    simp only [exec, execTimerEvent, act] at h
    cases h
    split
    · exact ⟨Kept.refl s, .of_clips rfl⟩
    split
    · have k := fun u : State => keeps_timerGives u.timeBase.due order (Keeps.refl u)
      exact ⟨.of_event (k _), .of_event (k _).tells⟩
    · exact ⟨Kept.refl s, .of_clips rfl⟩
  case referenceLoss order => exact kept_of_act_event (fun u => keeps_loseReference order (Keeps.refl u)) h
  case scanVisit => exact kept_of_act_event (fun u => keeps_scanVisit (Keeps.refl u)) h
  case graceExpiry j => exact kept_of_act_event (fun u => keeps_expireGrace j (Keeps.refl u)) h
  case arrivalNotice angle stamp phase =>
    refine kept_of_keeps (by simp [touches]) h ?_
    simp only [exec, execArrivalNotice] at h
    refine keeps_act ?_ h
    split
    · exact keeps_takeNotice _ _ _ _ (Keeps.refl s)
    · exact keeps_quiet (frame_answerIngest (by decide) _ (frame_unknownAngles (by decide) _ (Frame.refl _ s))) (Keeps.refl s)
  case fetchCompletion channel tag status =>
    refine kept_of_keeps (by simp [touches]) h ?_
    simp only [exec, execFetchCompletion] at h
    refine keeps_act ?_ h
    split
    · exact keeps_quiet (frame_unmatched (by decide) _ (Frame.refl _ s)) (Keeps.refl s)
    · exact keeps_fetchCompleted _ _ _ (Keeps.refl s)
  case linkLoss j => exact kept_of_keeps (by simp [touches]) h (keeps_act (f := fun u => u.loseLink j)
      (keeps_loseLink j (Keeps.refl s)) h)
  case angleAbsent | writeCompletion | coolDownEnd | claimTimeout | alertTimerExpiry | reportTransmissionEnd | resetLineHeld =>
    exact kept_of_quiet h (by simp [touches, quietParts])
  all_goals cases hi

/-! ### Reception -/

theorem Kept.of_quiet (h : Frame quietParts s t) : Kept s t :=
  .of_clips (keeps_quiet h (Keeps.refl s)) (h .clips (by decide))

/-- Frames taken one after another each keep what an event keeps (R162). -/
theorem kept_receive (j : Station) (gap : Bool) (moment : Nat) (order : List Reaction) (fuel : Nat) (bytes : List RxByte)
    (k : Kept s t) : Kept s (State.receive j gap moment order fuel bytes t) := by
  have hlink : ∀ g : Link → Link, (∀ l, (g l).state = l.state ∧ (g l).enabled = l.enabled) → ∀ u, Kept s u →
      Kept s (u.modLink j g) :=
    fun g hg u hu => hu.trans (.of_quiet (frame_modLink (by decide) _ _ hg (Frame.refl _ u)))
  have hreject : ∀ fault u, Kept s u → Kept s (u.rejectFrame j fault) :=
    fun fault u hu => hu.trans (.of_quiet (frame_rejectFrame (by decide) _ _ (Frame.refl _ u)))
  induction fuel generalizing t bytes with
  | zero => exact k
  | succ n ih =>
    unfold State.receive
    split
    · exact k
    next hon =>
    split
    · exact hlink _ (fun _ => ⟨by rfl, by rfl⟩) _ k
    split
    · split
      · exact ih _ (hreject _ _ k)
      · exact hlink _ (fun _ => ⟨by rfl, by rfl⟩) _ k
    · exact ih _ (hreject _ _ k)
    · refine ih _ ((hlink _ (fun _ => ⟨by rfl, by rfl⟩) _ k).trans (.of_event (keeps_acceptFrame_of_on ?_ _ _ _)))
      have hst : ((t.modLink j Link.clearRx).link j).state = (t.link j).state := by
        rw [link_modLink_same]
        rfl
      exact fun e => hon (hst ▸ e)

/-! ### Reset -/

theorem within_reset : State.reset.Within := by
  refine ⟨by decide, fun k => ?_, fun c => ?_, ?_⟩
  · have hl : State.reset.link k = .reset := vector_replicate_get ..
    rw [hl]
    exact ⟨by decide, fun _ => rfl⟩
  · have hc : State.reset.chan c = .reset := vector_replicate_get ..
    rw [hc]
    exact ⟨by decide, List.nodup_nil, by simp [Channel.reset], by decide, by decide⟩
  · unfold CurveInRange
    decide

theorem pagesPlaced_reset : State.reset.PagesPlaced := by
  have hl : ∀ a, State.reset.pageList a = [] := fun a => vector_replicate_get ..
  have hlists : (allAngles.flatMap fun a => (State.reset.pageList a).map (·.number)) = [] := by simp [hl]
  unfold State.PagesPlaced State.pageNumbers
  rw [hlists, List.append_nil]
  exact List.Perm.refl _

/-- Settles O60. -/
theorem resetMeetsTheInvariants : Obligations.ResetMeetsTheInvariants :=
  ⟨inRange_iff.mpr ⟨within_reset, rfl⟩, pagesPlaced_reset⟩

/-! ### Every command -/

/-- Every command keeps the limits and the places of the pages, and leaves no event half taken. -/
theorem kept_exec {i : Instr} (h : exec i s = .next t) : Kept s t := by
  cases hi : i.sender with
  | some k => exact (kept_row hi h).1
  | none =>
    cases i
    case hardwareReset =>
      cases h
      exact ⟨fun _ => ⟨within_reset.routes, within_reset.links, within_reset.chans, within_reset.curve⟩,
        fun _ => pagesPlaced_reset, fun _ => rfl⟩
    case deskFrame j bytes moment order =>
      simp only [exec, execDeskFrame, act] at h
      cases h
      split
      · exact Kept.refl s
      · exact kept_receive _ _ _ _ _ _ (Kept.refl s)
    case interbyteTimeout j moment order =>
      simp only [exec, execInterbyteTimeout, act] at h
      cases h
      split
      · exact Kept.refl s
      split
      · exact Kept.refl s
      · exact kept_receive _ _ _ _ _ _ (Kept.refl s)
    all_goals exact (kept_event hi nofun nofun nofun h).1

/-- A step keeps what a command keeps; a handover changes the ports alone. -/
theorem kept_step (h : step s = .next t) : Kept s t := by
  unfold step at h
  split at h
  · cases h
    unfold State.handOver
    split
    · exact Kept.refl s
    · exact ⟨fun w => ⟨w.routes, w.links, w.chans, w.curve⟩, id, id⟩
  · next c rest _ =>
    have hq : Kept s { s with pending := rest } :=
      ⟨fun w => ⟨w.routes, w.links, w.chans, w.curve⟩, id, id⟩
    exact hq.trans (kept_exec h)

/-- Settles O13. -/
theorem pagesStayPlaced : Obligations.PagesStayPlaced := fun _ _ hp h => (kept_step h).placed hp

/-- Settles O59. -/
theorem limitsAreKeptByEveryStep : Obligations.LimitsAreKeptByEveryStep := by
  intro s t hs h
  obtain ⟨hw, hr⟩ := inRange_iff.mp hs
  exact inRange_iff.mpr ⟨(kept_step h).within hw, (kept_step h).raised hr⟩

/-- Settles O20: every operation of an event tells of the generation, and `Tells` composes. -/
theorem generationRisesOnceInAnEvent : Obligations.GenerationRisesOnceInAnEvent := by
  refine ⟨fun i s t _ h hr hd hg => ?_, fun s k moment order f => ?_⟩
  · cases hi : i.sender with
    | some k => exact (kept_row hi h).2
    | none => exact (kept_event hi hr hd hg h).2
  · have hlink : Tells s.atEvent (s.atEvent.modLink k fun l => l.accept f) :=
      (Tells.refl _).frame (frame_modLink_any (m := [.links, .linkStates]) _ _ (.inl (by decide)) (.inl (by decide))
        (Frame.refl _ _)) (by decide)
    exact RaisesOnce.of_event (hlink.trans (keeps_acceptFrame _ _ _ _ (Keeps.refl _)).tells)

end Sys2Proof.Machine
end

section
/-! PROOFS. Proofs/TimeBase.lean: steps and reset (R184), the commands of the time base (R3 to R8, R178), and the order of a
house frame's reactions (R1, R2, R95, R131, R149 to R151). -/

namespace Sys2Proof.Machine

variable {s : State}

/-! ### Steps and the held line -/

/-- Settles O1: the two branches of a step, and the handover with and without RESET. -/
theorem stepTakesTheFrontCommand : Obligations.StepTakesTheFrontCommand := by
  refine fun s => ⟨fun c rest h => ?_, fun h hr => ?_, fun h hr => ?_⟩
  · simp only [step, h]
  · simp [step, h, State.handOver, hr]
  · simp [step, h, State.handOver, hr]

/-- While RESET is held a command but the release changes nothing (R184). -/
theorem exec_held {i : Instr} (h : s.resetHeld = true) (hr : ∀ moment, i ≠ .hardwareReset moment) (hl : i ≠ .resetLineHeld) :
    exec i s = .next s := by
  cases i
  case hardwareReset => exact absurd rfl (hr _)
  case resetLineHeld => exact absurd rfl hl
  all_goals exact congrArg Host.Outcome.next (if_pos h)

theorem pageList_reset (a : Angle) : State.reset.pageList a = [] := vector_replicate_get ..

theorem link_reset (k : Station) : State.reset.link k = .reset := vector_replicate_get ..

/-- Settles O2: the reset values one by one, and a command while RESET is held. -/
theorem resetAndTheHeldLine : Obligations.ResetAndTheHeldLine := by
  refine ⟨⟨fun _ _ => rfl, rfl, fun a => vector_replicate_get .., rfl, rfl, rfl, fun a => ⟨pageList_reset a, ?_⟩, rfl, rfl,
    fun a => ⟨vector_replicate_get .., vector_replicate_get ..⟩, rfl, rfl, rfl, fun a => vector_replicate_get ..,
    fun c => vector_replicate_get .., rfl, rfl, fun c => vector_replicate_get .., fun k => vector_replicate_get ..,
    fun k c => ?_, rfl, rfl, fun k => ?_, rfl, fun k => vector_replicate_get ..⟩, fun _ => rfl,
    fun _ _ h hr hl => exec_held h hr hl⟩
  · simp [State.span, pageList_reset]
  · simp [State.coolDownRun, State.reset, Arbiter.reset]
  · rw [link_reset]
    exact ⟨rfl, rfl, rfl, rfl, rfl⟩

/-! ### Events of the time base -/

@[simp] theorem atEvent_timeBase : s.atEvent.timeBase = s.timeBase := rfl

/-- A command that is one event does what a function does to the state the event begins in. -/
theorem act_event {f g : State → State} (h : s.resetHeld = false) (hfg : f s.atEvent = g s.atEvent) :
    act (fun u => u.inEvent f) s = .next (s.inEvent g) := by
  rw [act_released _ h, inEvent_congr hfg]

theorem qualifies_iff {t : TimeBase} {moment : Nat} :
    t.qualifies moment = true ↔ ∃ p, t.lastPulse = some p ∧ inTolerance t.rate (moment - p) := by
  unfold TimeBase.qualifies
  cases t.lastPulse <;> simp [withinTolerance]

theorem qualifies_of_last {t : TimeBase} {moment p : Nat} (h : t.lastPulse = some p) (hp : inTolerance t.rate (moment - p)) :
    t.qualifies moment = true := qualifies_iff.mpr ⟨p, h, hp⟩

/-! A pulse, one lemma per case of R3, R6 and R7. -/

theorem pulse_locked {moment : Nat} {order : List Reaction} (h : s.timeBase.ref = .locked) :
    s.pulse moment order = (s.modTime fun t => { t with lastPulse := some moment }).giveEvent moment order := by
  simp [State.pulse, h]

theorem pulse_unqualified {moment : Nat} {order : List Reaction} (h : s.timeBase.ref = .free)
    (hq : s.timeBase.qualifies moment = false) :
    s.pulse moment order = s.modTime fun t =>
      { t with qualifyingRun := 0, unqualifiedCount := satInc t.unqualifiedCount, lastPulse := some moment } := by
  simp [State.pulse, h, hq]

theorem pulse_qualifying {moment : Nat} {order : List Reaction} (h : s.timeBase.ref = .free)
    (hq : s.timeBase.qualifies moment = true) (hr : s.timeBase.qualifyingRun < 3) :
    s.pulse moment order =
      s.modTime fun t => { t with qualifyingRun := t.qualifyingRun + 1, lastPulse := some moment } := by
  simp [State.pulse, h, hq, Nat.not_le.mpr hr]

theorem pulse_relock {moment : Nat} {order : List Reaction} (h : s.timeBase.ref = .free)
    (hq : s.timeBase.qualifies moment = true) (hr : s.timeBase.qualifyingRun = 3) :
    s.pulse moment order = s.relock moment order := by
  simp [State.pulse, h, hq, hr]

theorem relock_late {moment : Nat} {order : List Reaction}
    (h : s.timeBase.rate.period ≤ 2 * (moment - s.timeBase.lastEvent)) :
    s.relock moment order = (s.modTime fun t =>
      { t with ref := .locked, qualifyingRun := 0, relockCount := satInc t.relockCount, lastPulse := some moment }
      ).giveEvent moment order := by
  simp [State.relock, h]

theorem relock_early {moment : Nat} {order : List Reaction}
    (h : 2 * (moment - s.timeBase.lastEvent) < s.timeBase.rate.period) :
    s.relock moment order = s.modTime fun t =>
      { t with ref := .locked, qualifyingRun := 0, relockCount := satInc t.relockCount, lastPulse := some moment } := by
  simp [State.relock, Nat.not_le.mpr h]

theorem loseReference_locked {p : Nat} {order : List Reaction} (h : s.timeBase.ref = .locked)
    (hp : s.timeBase.lastPulse = some p) :
    s.loseReference order = (s.modTime fun t =>
      { t with ref := .free, qualifyingRun := 0, timerPlace := 0, lossCount := satInc t.lossCount }).giveEvent
        (p + 2 * s.timeBase.rate.period) order := by
  simp [State.loseReference, h, hp]

/-- Settles O5: the cases of R3 to R7 are those of a pulse, of the timer and of the loss. -/
theorem houseFrameEventsOfPulsesTimerAndLoss : Obligations.HouseFrameEventsOfPulsesTimerAndLoss := by
  refine ⟨fun s moment order hr => ⟨fun h => ?_, fun h hp => ?_, fun p h hp ht hq => ?_, fun p h hp ht hq hl => ?_,
    fun p h hp ht hq hl => ?_⟩, fun s order hr => ⟨fun h => ?_, fun h => ?_, fun p h hp => ?_⟩⟩
  · exact act_event hr (pulse_locked (s := s.atEvent) h)
  · refine act_event hr (pulse_unqualified (s := s.atEvent) h (Bool.eq_false_iff.mpr fun hq => ?_))
    obtain ⟨p, hl, ht⟩ := qualifies_iff.mp hq
    exact hp p hl ht
  · exact act_event hr (pulse_qualifying (s := s.atEvent) h (qualifies_of_last hp ht) hq)
  · exact act_event hr ((pulse_relock (s := s.atEvent) h (qualifies_of_last hp ht) hq).trans (relock_late (s := s.atEvent) hl))
  · exact act_event hr ((pulse_relock (s := s.atEvent) h (qualifies_of_last hp ht) hq).trans (relock_early (s := s.atEvent) hl))
  · simp only [exec, execTimerEvent, act_released _ hr, h, if_true]
    refine congrArg _ (inEvent_congr (congrArg (fun u => State.houseFrame u order) ?_))
    rfl
  · simp [exec, execTimerEvent, act_released _ hr, h]
  · exact act_event hr (loseReference_locked (s := s.atEvent) h hp)

/-! ### HOUSE RATE -/

theorem rateOf_eq_some {hundredths : BitVec 16} {rate : HouseRate}
    (h : hundredths = 5000 ∧ rate = .fps50 ∨ hundredths = 5994 ∧ rate = .fps5994) :
    rateOf hundredths.toNat = some rate := by
  rcases h with ⟨rfl, rfl⟩ | ⟨rfl, rfl⟩ <;> rfl

theorem rateOf_eq_none {hundredths : BitVec 16} (h1 : hundredths ≠ 5000) (h2 : hundredths ≠ 5994) :
    rateOf hundredths.toNat = none := by
  have h1' : hundredths.toNat ≠ 5000 := fun e => h1 (BitVec.eq_of_toNat_eq e)
  have h2' : hundredths.toNat ≠ 5994 := fun e => h2 (BitVec.eq_of_toNat_eq e)
  simp [rateOf, h1', h2']

/-- The two bytes of a 16-bit field (11.3) are those of its number. -/
theorem beBytes_two (x : BitVec 16) : beBytes 2 x.toNat = [x.extractLsb' 8 8, x.extractLsb' 0 8] := by
  have h : beBytes 2 x.toNat = [BitVec.ofNat 8 (x.toNat / 256), BitVec.ofNat 8 (x.toNat / 1)] := rfl
  rw [h]
  congr 1
  · exact BitVec.eq_of_toNat_eq (by simp [Nat.shiftRight_eq_div_pow])
  · congr 1
    exact BitVec.eq_of_toNat_eq (by simp)

theorem startHouseRate_hears {hundredths : BitVec 16} {moment : Nat} {order : List Reaction} (h : s.hears 0) :
    startHouseRate 0 hundredths moment order s =
      let r := houseRateRule hundredths (s.counted 0)
      let t := r.1.writeAck 0 (ackOf CommandKind.houseRate.code r.2)
      if (rateOf hundredths.toNat).isSome && decide (t.timeBase.due < moment) then t.timerGives moment order else t := by
  have hs := startCommand_hears (kind := .houseRate) (houseRateRule hundredths) h (.inr rfl) rfl
  obtain ⟨-, hoff, hc⟩ := h
  unfold startHouseRate State.takesHouseRate
  rw [hs]
  simp [hoff, State.slotBusy, hc]

/-- Settles O6: a rate of R8 is taken and answered, and an overdue event follows; another is refused. -/
theorem houseRateTurnsToFree : Obligations.HouseRateTurnsToFree := by
  refine fun s hundredths moment order h => ⟨fun rate hrate => ?_, fun h1 h2 => ?_⟩
  · refine act_event h.1 ?_
    rw [startHouseRate_hears (hears_event h false)]
    simp only [houseRateRule, rateOf_eq_some hrate, Option.isSome_some, Bool.true_and, decide_eq_true_eq, beBytes_two]
    rfl
  · refine act_event h.1 ?_
    rw [startHouseRate_hears (hears_event h false)]
    simp only [houseRateRule, rateOf_eq_none h1 h2, Option.isSome_none, Bool.false_and, Bool.false_eq_true, if_false]
    rfl

/-! ### The house frame event -/

/-- The reactions of a house frame leave the time base alone. -/
theorem houseFrame_timeBase (s : State) (order : List Reaction) :
    (s.houseFrame order).timeBase = { s.timeBase with houseCount := satInc s.timeBase.houseCount } := by
  have H : HouseParts (housePart.erase .timeBase) := by constructor <;> decide
  refine (Frame.foldl_work _ _ (fun w c hw => frame_channelWork H c w hw) _
    (Frame.foldl_work _ _ (fun w r hw => frame_react H w r hw) _ (Frame.refl _ _))) .timeBase ?_
  decide

theorem nodup_allReactions : allReactions.Nodup := by decide

theorem mem_allReactions (r : Reaction) : r ∈ allReactions := by
  cases r with
  | recorder | arbiter => decide
  | channel c => fin_cases c <;> decide
  | linkWatch k | linkReport k => fin_cases k <;> decide

theorem eraseDups_of_nodup {order : List Reaction} (h : order.Nodup) : order.eraseDups = order := by
  induction order with
  | nil => rfl
  | cons r rest ih =>
    obtain ⟨hr, hrest⟩ := List.nodup_cons.mp h
    have hf : (rest.filter fun b => !b == r) = rest := List.filter_eq_self.mpr fun b hb => by
      have : b ≠ r := fun e => hr (e ▸ hb)
      simpa using this
    rw [List.eraseDups_cons, hf, ih hrest]

theorem nodup_eraseDups (order : List Reaction) : order.eraseDups.Nodup := by
  induction hn : order.length using Nat.strong_induction_on generalizing order with
  | _ n ih =>
    cases order with
    | nil => exact List.nodup_nil
    | cons r rest =>
      rw [List.eraseDups_cons, List.nodup_cons]
      refine ⟨by simp [List.mem_eraseDups], ih _ ?_ _ rfl⟩
      have := List.length_filter_le (fun b => !b == r) rest
      simp only [List.length_cons] at hn
      omega

/-- The order a house frame takes its reactions in names each once (R1). -/
theorem fullOrder_count (order : List Reaction) (r : Reaction) : (fullOrder order).count r = 1 := by
  have hnodup : (fullOrder order).Nodup := by
    refine List.nodup_append.mpr ⟨nodup_eraseDups order, nodup_allReactions.filter _, fun x hx y hy => ?_⟩
    have hx : x ∈ order := List.mem_eraseDups.mp hx
    have hy : y ∉ order := by simpa using (List.mem_filter.mp hy).2
    exact fun e => hy (e ▸ hx)
  refine List.count_eq_one_of_mem hnodup (List.mem_append.mpr ?_)
  by_cases h : r ∈ order
  · exact .inl (List.mem_eraseDups.mpr h)
  · exact .inr (List.mem_filter.mpr ⟨mem_allReactions r, by simpa using h⟩)

theorem channelWork_idle {c : Chan} {served : List Chan}
    (h : (s.chan c).head = none ∨ s.isFollower c = true ∨ c ∈ served) : channelWork c (s, served) = (s, served) := by
  unfold channelWork
  rw [if_pos]
  rcases h with h | h | h <;> simp [h]

theorem channelWork_moving {c : Chan} {served : List Chan} (h : (s.chan c).head ≠ none) (hf : s.isFollower c = false)
    (hc : c ∉ served) :
    channelWork c (s, served) =
      ((c :: ((s.advance c).followersOf c).filter fun f => decide (f ∉ served)).foldl (fun t m => t.requestFor m)
        (s.advance c), (c :: ((s.advance c).followersOf c).filter fun f => decide (f ∉ served)) ++ served) := by
  have hm : ((c :: (s.advance c).followersOf c).filter fun m => !served.contains m) =
      c :: ((s.advance c).followersOf c).filter fun f => decide (f ∉ served) := by
    simp [hc]
  unfold channelWork
  dsimp only
  rw [if_neg, hm]
  simp [h, hf, hc]

/-- Settles O4: the order of the reactions, and the work of each. -/
theorem houseFrameRunsEveryReactionOnce : Obligations.HouseFrameRunsEveryReactionOnce := by
  refine ⟨fun s order => ⟨houseFrame_timeBase s order, rfl, fullOrder_count order, fun h =>
    ⟨allReactions.filter fun r => !order.contains r, by rw [fullOrder, eraseDups_of_nodup h]⟩⟩, fun s served => ⟨rfl, rfl, fun k => ⟨rfl, rfl⟩, fun c => ⟨rfl, channelWork_idle, channelWork_moving⟩⟩⟩

end Sys2Proof.Machine
end

section
/-! PROOFS. Proofs/Updates.lean: updates of one part that follow one another, and the look-ups of numbers: lemmas of the
operations of Machine/Ops.lean that the effects of single commands go through. -/

namespace Sys2Proof.Machine

variable {s : State}

/-! ### Updates of one part, one after another -/

theorem vmod_vmod {α : Type} {n : Nat} (v : Vector α n) (i : Fin n) (f g : α → α) :
    vmod (vmod v i f) i g = vmod v i fun x => g (f x) :=
  vector_ext_get fun j => by
    simp only [vmod_get]
    split <;> rfl

theorem vmod_congr {α : Type} {n : Nat} (v : Vector α n) (i : Fin n) {f g : α → α} (h : f (v.get i) = g (v.get i)) :
    vmod v i f = vmod v i g :=
  vector_ext_get fun j => by
    simp only [vmod_get]
    split
    · next e => subst e; exact h
    · rfl

theorem vmod_self {α : Type} {n : Nat} (v : Vector α n) (i : Fin n) {f : α → α} (h : f (v.get i) = v.get i) :
    vmod v i f = v :=
  vector_ext_get fun j => by
    simp only [vmod_get]
    split
    · next e => subst e; exact h
    · rfl

theorem modRecorder_modRecorder (a : Angle) (f g : RecContext → RecContext) :
    (s.modRecorder a f).modRecorder a g = s.modRecorder a fun r => g (f r) := by
  simp only [State.modRecorder, vmod_vmod]

theorem modRecorder_congr {a : Angle} {f g : RecContext → RecContext} (h : f (s.recorder a) = g (s.recorder a)) :
    s.modRecorder a f = s.modRecorder a g := by
  simp only [State.modRecorder, vmod_congr _ _ (f := f) (g := g) h]

theorem modChan_modChan (c : Chan) (f g : Channel → Channel) :
    (s.modChan c f).modChan c g = s.modChan c fun ch => g (f ch) := by
  simp only [State.modChan, vmod_vmod]

theorem modChan_congr {c : Chan} {f g : Channel → Channel} (h : f (s.chan c) = g (s.chan c)) :
    s.modChan c f = s.modChan c g := by
  simp only [State.modChan, vmod_congr _ _ (f := f) (g := g) h]

theorem modChan_self {c : Chan} {f : Channel → Channel} (h : f (s.chan c) = s.chan c) : s.modChan c f = s := by
  simp only [State.modChan, vmod_self _ _ (f := f) h]

theorem modLink_modLink (k : Station) (f g : Link → Link) :
    (s.modLink k f).modLink k g = s.modLink k fun l => g (f l) := by
  simp only [State.modLink, vmod_vmod]

/-! ### Numbers of angles and channels -/

/-- The byte of an angle is that of its number (11.2). -/
theorem angleByte_angleOf? {b : Byte} {a : Angle} (h : angleOf? b.toNat = some a) : angleByte a = b := by
  unfold angleOf? at h
  split at h
  · cases h
    refine BitVec.eq_of_toNat_eq ?_
    simp only [angleByte, BitVec.toNat_ofNat]
    omega
  · cases h

/-- The byte of a channel is that of its number (11.2). -/
theorem chanByte_chanOf? {b : Byte} {c : Chan} (h : chanOf? b.toNat = some c) : chanByte c = b := by
  unfold chanOf? at h
  split at h
  · cases h
    refine BitVec.eq_of_toNat_eq ?_
    simp only [chanByte, BitVec.toNat_ofNat]
    omega
  · cases h

theorem angleOf?_eq_none_iff {n : Nat} : angleOf? n = none ↔ n < 1 ∨ 8 < n := by
  unfold angleOf?
  split
  · exact iff_of_false (by simp) (by omega)
  · exact iff_of_true rfl (by omega)

theorem chanOf?_eq_none_iff {n : Nat} : chanOf? n = none ↔ n < 1 ∨ 4 < n := by
  unfold chanOf?
  split
  · exact iff_of_false (by simp) (by omega)
  · exact iff_of_true rfl (by omega)

theorem stationOf?_eq_none_iff {n : Nat} : stationOf? n = none ↔ 4 < n := by
  unfold stationOf?
  split
  · exact iff_of_false (by simp) (by omega)
  · exact iff_of_true rfl (by omega)

theorem mem_allAngles (a : Angle) : a ∈ allAngles := by fin_cases a <;> decide

theorem mem_allChans (c : Chan) : c ∈ allChans := by fin_cases c <;> decide

theorem mem_allStations (k : Station) : k ∈ allStations := by fin_cases k <;> decide

theorem nodup_allAngles : allAngles.Nodup := by decide

theorem nodup_allChans : allChans.Nodup := by decide

theorem nodup_allStations : allStations.Nodup := by decide

/-! ### Commands and their answers -/

/-- A command that is heard and allowed: what its rule does, answered (R169, R170). -/
theorem step_answers {stn : Station} {kind : CommandKind} {fits : Bool} {body : State → State × Reply} {t : State}
    {r : Result} {data : List Byte} (h : s.hears stn) (allowed : kind.isReserved = false ∨ stn = 0) (hf : fits = true)
    (hb : body (s.counted stn) = (t, { result := some r, data := data })) :
    act (startCommand stn kind fits body) s = .next (t.answered stn kind r data) := by
  rw [step_startCommand h allowed hf, hb]
  rfl

/-- A command that is one event, heard and allowed: what its rule does, answered (R62, R169, R170). -/
theorem event_answers {stn : Station} {kind : CommandKind} {fits : Bool} {body : State → State × Reply} {g : State → State}
    {r : Result} {data : List Byte} (h : s.hears stn) (allowed : kind.isReserved = false ∨ stn = 0) (hf : fits = true)
    (hb : body (s.atEvent.counted stn) = (g (s.atEvent.counted stn), { result := some r, data := data })) :
    act (fun s => s.inEvent (startCommand stn kind fits body)) s =
      .next (s.inEvent fun u => (g (u.counted stn)).answered stn kind r data) :=
  event_startCommand h allowed hf fun u hu => by
    subst hu
    rw [hb]
    rfl

/-! ### Pages found by their number -/

/-- In a list whose page numbers differ, a page is the one its number finds. -/
theorem find?_number_of_mem {l : List Page} {p : Page} (hn : (l.map (·.number)).Nodup) (hp : p ∈ l) :
    l.find? (fun q => decide (q.number = p.number)) = some p := by
  induction l with
  | nil => cases hp
  | cons q rest ih =>
    obtain ⟨hq, hrest⟩ := List.nodup_cons.mp hn
    rcases List.mem_cons.mp hp with rfl | hp
    · simp
    · have hne : q.number ≠ p.number := fun e => hq (List.mem_map.mpr ⟨p, hp, e.symm⟩)
      rw [List.find?_cons_of_neg (by simpa using hne)]
      exact ih hrest hp

end Sys2Proof.Machine
end

section
/-! PROOFS. Proofs/Recorder.lean: arrival notices (R18 to R25), write completions (R26 to R28), REC START, REC STOP and ANGLE
SET (R14 to R17), and the page supply (R40 to R42). -/

namespace Sys2Proof.Machine

variable {s : State}

/-! ### The judgement of a notice -/

/-- The presence of an angle bears no part in the judgement of its notices. -/
theorem judgeNotice_present (a : Angle) (stamp phase : Nat) :
    (s.modRecorder a fun r => { r with present := true, silence := 0 }).judgeNotice a stamp phase =
      s.judgeNotice a stamp phase := by
  simp [State.judgeNotice]

/-- The kind of the first of the checks 1 to 5 that a notice fails (R18 to R21). -/
theorem judgeNotice_eq_error {a : Angle} {stamp phase : Nat} {kind : RefusalKind}
    (h : let r := s.recorder a
      let t := resolveStamp s.timeBase.houseCount stamp
      let n := t.getD 0 * r.rateMultiple + phase
      if r.rateMultiple ≤ phase ∨ t = none then kind = .format
      else if r.state ≠ .recording then kind = .notRecording
      else if ∃ x ∈ r.newest, n ≤ x then kind = .stale
      else 2 ≤ r.pendingWrites.length ∧ kind = .overrun) :
    s.judgeNotice a stamp phase = .error kind := by
  dsimp only at h
  unfold State.judgeNotice
  dsimp only
  by_cases hp : (s.recorder a).rateMultiple ≤ phase
  · rw [if_pos (.inl hp)] at h
    rw [if_pos hp, h]
  cases ht : resolveStamp s.timeBase.houseCount stamp with
  | none =>
    rw [if_pos (.inr ht)] at h
    simp [hp, h]
  | some t =>
    simp only [ht, hp, false_or, reduceCtorEq, if_false, Option.getD_some] at h ⊢
    split at h
    · next hs => rw [if_pos hs, h]
    next hs =>
    rw [if_neg hs]
    have hstale : ((s.recorder a).newest.any fun x => decide (t * (s.recorder a).rateMultiple + phase ≤ x)) = true ↔
        ∃ x ∈ (s.recorder a).newest, t * (s.recorder a).rateMultiple + phase ≤ x := by
      simp [Option.any_eq_true]
    split at h
    · next hx => rw [if_pos (hstale.mpr hx), h]
    · next hx => rw [if_neg fun e => hx (hstale.mp e), if_pos h.1, h.2]

/-! ### Arrival notices -/

theorem exec_arrivalNotice {angle : BitVec 4} {stamp : BitVec 16} {phase : BitVec 3} {a : Angle} (hr : s.resetHeld = false)
    (ha : angleOf? angle.toNat = some a) :
    exec (.arrivalNotice angle stamp phase) s = .next (s.takeNotice a angle stamp phase) := by
  simp only [exec, execArrivalNotice, act_released _ hr, ha]

theorem takeNotice_refused {angle : BitVec 4} {stamp : BitVec 16} {phase : BitVec 3} {a : Angle} {kind : RefusalKind}
    (h : s.judgeNotice a stamp.toNat phase.toNat = .error kind) :
    s.takeNotice a angle stamp phase =
      (s.modRecorder a fun r => { r with present := true, silence := 0 }).refuseNotice a angle stamp phase kind := by
  simp only [State.takeNotice, judgeNotice_present, h]

theorem judgeNotice_ne_starved {a : Angle} {stamp phase : Nat} : s.judgeNotice a stamp phase ≠ .error .starved := by
  unfold State.judgeNotice
  dsimp only
  repeat' split
  all_goals simp

theorem takeNotice_granted {angle : BitVec 4} {stamp : BitVec 16} {phase : BitVec 3} {a : Angle} {n : Nat}
    {t : State} {page : Nat} (h : s.judgeNotice a stamp.toNat phase.toNat = .ok n)
    (hf : (s.modRecorder a fun r => { r with present := true, silence := 0 }).findPage a n = (t, some page)) :
    s.takeNotice a angle stamp phase =
      (t.grantFrame a n page).answerIngest (.grant angle phase stamp (t.nextSlot a page) s.houseLow) := by
  simp only [State.takeNotice, judgeNotice_present, h, hf]

theorem takeNotice_starved {angle : BitVec 4} {stamp : BitVec 16} {phase : BitVec 3} {a : Angle} {n : Nat}
    {t : State} (h : s.judgeNotice a stamp.toNat phase.toNat = .ok n)
    (hf : (s.modRecorder a fun r => { r with present := true, silence := 0 }).findPage a n = (t, none)) :
    s.takeNotice a angle stamp phase = t.refuseNotice a angle stamp phase .starved := by
  simp only [State.takeNotice, judgeNotice_present, h, hf]

theorem findPage_continues {a : Angle} {n : Nat} {p : Page} (hf : s.fillingPage a = some p)
    (he : (s.recorder a).expected = some n) (hc : p.count < 64) : s.findPage a n = (s, some p.number) := by
  simp [State.findPage, hf, he, hc]

theorem findPage_supplies {a : Angle} {n : Nat}
    (h : ∀ p, s.fillingPage a = some p → (s.recorder a).expected = some n → 64 ≤ p.count) :
    s.findPage a n = s.supplyPage a n := by
  unfold State.findPage
  cases hf : s.fillingPage a with
  | none => rfl
  | some p =>
    dsimp only
    rw [if_neg]
    rw [Bool.and_eq_true, decide_eq_true_eq, decide_eq_true_eq]
    rintro ⟨he, hc⟩
    exact Nat.not_le.mpr hc (h p hf he)

/-- The slot of the next frame of a page that stands in its angle's list. -/
theorem nextSlot_of_mem {a : Angle} {p : Page} (hn : ((s.pageList a).map (·.number)).Nodup) (hp : p ∈ s.pageList a) :
    s.nextSlot a p.number = p.number * 64 + p.count := by
  simp [State.nextSlot, find?_number_of_mem hn hp]

theorem recorder_supplyPage (a b : Angle) (frame : Nat) : (s.supplyPage a frame).1.recorder b = s.recorder b := by
  have h := frame_supplyPage (m := [.pages, .pageNumbers]) (by decide) (by decide) a frame (Frame.refl _ s) .recorders
    (by decide)
  exact congrArg (fun v : Vector RecContext 8 => v.get b) h

theorem houseLow_supplyPage (a : Angle) (frame : Nat) : (s.supplyPage a frame).1.houseLow = s.houseLow := by
  have h : (s.supplyPage a frame).1.timeBase = s.timeBase :=
    frame_supplyPage (m := [.pages, .pageNumbers]) (by decide) (by decide) a frame (Frame.refl _ s) .timeBase (by decide)
  unfold State.houseLow
  rw [h]

/-- A page supplied is an empty page at the end of the angle's list. -/
theorem supplyPage_mem {a : Angle} {frame page : Nat} (h : (s.supplyPage a frame).2 = some page) :
    ∃ p ∈ (s.supplyPage a frame).1.pageList a, p.number = page ∧ p.count = 0 := by
  unfold State.supplyPage at h ⊢
  dsimp only at h ⊢
  split
  · next n hd =>
    rw [hd] at h
    cases h
    exact ⟨openedPage page frame (s.clips.openCounts.get a), by simp, rfl, rfl⟩
  · next hd =>
    rw [hd] at h
    dsimp only at h
    split
    · next p hc =>
      rw [hc] at h
      cases h
      exact ⟨openedPage p.number frame (s.clips.openCounts.get a), by simp, rfl, rfl⟩
    · next hc =>
      rw [hc] at h
      cases h

theorem nextSlot_supplied {a : Angle} {frame page : Nat} (hp : s.PagesPlaced) (h : (s.supplyPage a frame).2 = some page) :
    (s.supplyPage a frame).1.nextSlot a page = page * 64 := by
  obtain ⟨p, hmem, hnum, hcount⟩ := supplyPage_mem h
  have hslot := nextSlot_of_mem (pagesPlaced_nodup (pagesPlaced_supplyPage a frame hp) a) hmem
  rw [hnum, hcount] at hslot
  exact hslot

/-- Settles O8: a notice is granted the FILLING page or a supplied one, starved, refused by a check, or counted. -/
theorem noticesAreGrantedOrRefused : Obligations.NoticesAreGrantedOrRefused := by
  refine ⟨fun s angle stamp phase a n p hr ha hj he hf hc hn => ?_, fun s angle stamp phase a n hr hp ha hj hsup => ?_,
    fun s angle stamp phase hr => ⟨fun ha => ?_, fun a kind ha hk => ?_⟩⟩
  · rw [exec_arrivalNotice hr ha]
    have hcont := findPage_continues (s := s.modRecorder a fun r => { r with present := true, silence := 0 }) hf
      (by simpa using he) hc
    rw [takeNotice_granted hj hcont]
    have hslot : (s.modRecorder a fun r => { r with present := true, silence := 0 }).nextSlot a p.number =
        p.number * 64 + p.count := nextSlot_of_mem hn (List.mem_of_find?_eq_some hf)
    have hmiss : missingAt ((s.modRecorder a fun r => { r with present := true, silence := 0 }).recorder a).expected n = 0 := by
      simp [he, missingAt]
    unfold State.grantFrame
    dsimp only
    rw [hslot, hmiss, if_pos rfl]
    have hfuse := modRecorder_modRecorder
      (s := s.modPage p.number fun q => { q with count := q.count + 1, writeHolds := q.writeHolds + 1 }) a
      (fun r => { r with present := true, silence := 0 })
    exact congrArg (fun t : State => Host.Outcome.next (t.answerIngest _)) (hfuse _)
  · intro u missing low
    have hsup' : u.findPage a n = u.supplyPage a n :=
      findPage_supplies fun q hq he => hsup q hq (by simpa [u] using he)
    rw [exec_arrivalNotice hr ha]
    refine ⟨fun page hpage => ?_, fun hnone => ?_⟩
    · rw [takeNotice_granted hj (hsup'.trans (Prod.ext rfl hpage)), nextSlot_supplied (s := u) hp hpage]
      have hexp : ((u.supplyPage a n).1.recorder a).expected = (s.recorder a).expected := by
        rw [recorder_supplyPage]
        simp [u]
      have hmiss : missingAt ((u.supplyPage a n).1.recorder a).expected n = missing := by
        rw [hexp]
        rfl
      unfold State.grantFrame
      dsimp only
      rw [nextSlot_supplied (s := u) hp hpage, hmiss]
      rfl
    · rw [takeNotice_starved hj (hsup'.trans (Prod.ext rfl hnone))]
      unfold State.refuseNotice
      dsimp only
      rw [if_pos rfl, houseLow_supplyPage]
      rfl
  · simp only [exec, execArrivalNotice, act_released _ hr, ha]
    rfl
  · have hj := judgeNotice_eq_error hk
    have hne : kind ≠ .starved := fun e => judgeNotice_ne_starved (e ▸ hj)
    rw [exec_arrivalNotice hr ha, takeNotice_refused hj]
    unfold State.refuseNotice State.modRecCounts
    dsimp only
    rw [if_neg hne, modRecorder_modRecorder]
    rfl

/-! ### Write completions -/

theorem exec_writeCompletion {angle : BitVec 4} {slot : BitVec 20} {status : BitVec 2} {a : Angle}
    (hr : s.resetHeld = false) (ha : angleOf? angle.toNat = some a) :
    exec (.writeCompletion angle slot status) s = .next (s.takeCompletion a slot.toNat (status == 0)) := by
  simp only [exec, execWriteCompletion, act_released _ hr, ha]

/-- Settles O9: the head entry is completed, and any other completion is a port fault. -/
theorem writeCompletionsMoveTheLiveEdge : Obligations.WriteCompletionsMoveTheLiveEdge := by
  refine fun s angle slot status hr => ⟨fun ha => ?_, fun a ha hw => ?_, fun a w rest ha hw hs => ?_⟩
  · simp only [exec, execWriteCompletion, act_released _ hr, ha]
    rfl
  · rw [exec_writeCompletion hr ha]
    unfold State.takeCompletion
    split
    · next w h => rw [if_neg (hw w h)]; rfl
    · rfl
  · intro taken
    have htake : s.takeCompletion a slot.toNat (status == 0) = s.completeWrite a w (status == 0) := by
      simp [State.takeCompletion, hw, hs]
    rw [exec_writeCompletion hr ha, htake]
    refine ⟨fun h => ?_, fun h => ?_⟩
    · subst h
      refine congrArg Host.Outcome.next ?_
      unfold State.completeWrite
      dsimp only
      rw [if_pos (by decide)]
      refine modRecorder_congr ?_
      simp [taken, hw, satInc, satAdd, satMax]
    · have hok : (status == 0) = false := beq_eq_false_iff_ne.mpr h
      rw [hok]
      refine congrArg Host.Outcome.next ?_
      unfold State.completeWrite
      dsimp only
      rw [if_neg (by decide)]
      refine congrArg (fun t : State => t.raiseAngleAlert _) (modRecorder_congr ?_)
      simp [taken, hw, satInc, satAdd, satMax]

end Sys2Proof.Machine
end

section
/-! PROOFS. Proofs/RecordStates.lean: REC START, REC STOP and ANGLE SET (R14 to R17, R176, R177), and the page supply (R40
to R42). -/

namespace Sys2Proof.Machine

variable {s : State}

/-! ### REC START, REC STOP and ANGLE SET -/

theorem onAngle_some {angle : Byte} {a : Angle} {rule : Angle → State → State × Reply} (ha : angleOf? angle.toNat = some a) :
    onAngle angle rule s = rule a s := by
  simp [onAngle, ha]

theorem onAngle_none {angle : Byte} {rule : Angle → State → State × Reply} (ha : angleOf? angle.toNat = none) :
    onAngle angle rule s = (s, .plain .badArgument) := by
  simp [onAngle, ha]

theorem beBytes_two_nat (n : Nat) : beBytes 2 n = [BitVec.ofNat 8 (n / 256), BitVec.ofNat 8 n] := by
  simp [beBytes, List.range_succ]

theorem angleInUse_iff {a : Angle} : s.angleInUse a = true ↔ ∃ c h, (s.chan c).head = some h ∧ h.angle = a := by
  simp [State.angleInUse, mem_allChans]

theorem held_iff {l : List Page} :
    (l.any fun p => decide (0 < p.holdCount)) = true ↔
      ∃ p ∈ l, 0 < p.clipHolds + p.anchorPins + p.fetchHolds + p.writeHolds := by
  simp only [List.any_eq_true, decide_eq_true_eq]
  rfl

/-- Settles O11: each record state, the refusals of ANGLE SET in their order, and the numbers out of range. -/
theorem recordStatesAndAngleSet : Obligations.RecordStatesAndAngleSet := by
  refine ⟨fun s angle a h ha => ?_, fun s angle m quota a h ha hm1 hm4 => ?_, fun s angle m quota h => ?_⟩
  · have hb : angleByte a = angle := angleByte_angleOf? ha
    intro data u
    have hstart : ∀ {t r x}, recStartRule a u = (t, { result := some r, data := data x }) →
        exec (.recStart 0 angle) s = .next (t.answered 0 .recStart r (data x)) := fun e =>
      step_answers h (.inr rfl) rfl ((onAngle_some ha).trans e)
    have hstop : ∀ {t r x}, recStopRule a u = (t, { result := some r, data := data x }) →
        exec (.recStop 0 angle) s = .next (t.answered 0 .recStop r (data x)) := fun e =>
      step_answers h (.inr rfl) rfl ((onAngle_some ha).trans e)
    have hu : u.recorder a = s.recorder a := rfl
    have hc : u.timeBase.houseCount = s.timeBase.houseCount := rfl
    refine ⟨fun hs hcount => hstart ?_, fun hs hcount => hstart ?_, fun hs => ⟨hstart ?_, hstop ?_⟩,
      fun hs => ⟨hstart ?_, hstop ?_⟩, fun hs => hstop ?_⟩
    · have : ¬ satMax ≤ s.timeBase.houseCount := Nat.not_le.mpr hcount
      simp [recStartRule, hu, hc, hs, this, State.recReply, hb, data]
    · have : satMax ≤ s.timeBase.houseCount := hcount
      simp [recStartRule, hu, hc, hs, this, State.recReply, hb, data]
    all_goals simp [recStartRule, recStopRule, hu, hs, State.recReply, hb, data, State.sealAngle]
    rfl
  · have hb : angleByte a = angle := angleByte_angleOf? ha
    intro u inUse isHeld q
    have hset : ∀ {t r data}, angleSetRule m.toNat q a u = (t, { result := some r, data := data }) →
        exec (.angleSet 0 angle m quota) s = .next (t.answered 0 .angleSet r data) := fun e =>
      step_answers h (.inr rfl) rfl ((onAngle_some ha).trans ((if_neg (by omega)).trans e))
    have hu : u.recorder a = s.recorder a := rfl
    have huse : u.angleInUse a = true ↔ inUse := angleInUse_iff (s := s)
    have hheld : ((u.pageList a).any fun p => decide (0 < p.holdCount)) = true ↔ isHeld := held_iff
    refine ⟨fun hs => hset ?_, fun hs hn hh => hset ?_, fun hs hn hh => hset ?_⟩
    · unfold angleSetRule
      by_cases hst : (s.recorder a).state ≠ .stopped
      · rw [hu, if_pos hst]; rfl
      · rw [hu, if_neg hst, if_pos (huse.mpr (hs.resolve_left hst))]; rfl
    · unfold angleSetRule
      rw [hu, if_neg (not_not.mpr hs), if_neg fun e => hn (huse.mp e), if_pos (hheld.mpr hh)]; rfl
    · unfold angleSetRule
      rw [hu, if_neg (not_not.mpr hs), if_neg fun e => hn (huse.mp e), if_neg fun e => hh (hheld.mp e), hb,
        beBytes_two_nat, BitVec.ofNat_toNat, BitVec.setWidth_eq]
      rfl
  · refine ⟨fun ha => ⟨?_, ?_, ?_⟩, fun hm => ?_⟩
    · exact step_answers h (.inr rfl) rfl (onAngle_none ha)
    · exact step_answers h (.inr rfl) rfl (onAngle_none ha)
    · exact step_answers h (.inr rfl) rfl (onAngle_none ha)
    · refine step_answers h (.inr rfl) rfl ?_
      cases ha : angleOf? angle.toNat with
      | none => exact onAngle_none ha
      | some a => exact (onAngle_some ha).trans (if_pos hm)

/-! ### Page supplies -/

/-- The queued scan that tells a clip's hold mark: the LEAD scan of its re-mark. -/
abbrev reMarks (c : Clip) (sc : Scan) : Prop := sc.clipId = c.id ∧ sc.serial = c.serial ∧ sc.rule = .lead

theorem holdMark_of_no_reMark {c : Clip} (h : ∀ sc ∈ s.pages.scans, ¬ reMarks c sc) : s.holdMark c = c.inMark := by
  have hnone : (s.pages.scans.find? fun sc => sc.clipId = c.id && sc.serial = c.serial && sc.rule = .lead) = none :=
    List.find?_eq_none.mpr fun sc hsc => by simpa [reMarks, and_assoc] using h sc hsc
  simp only [State.holdMark, hnone]

theorem holdMark_of_reMark {c : Clip} {before later : List Scan} {sc : Scan} (hs : s.pages.scans = before ++ sc :: later)
    (hb : ∀ x ∈ before, ¬ reMarks c x) (hsc : reMarks c sc) :
    (sc.kind = .remove → s.holdMark c = sc.start) ∧ ∀ e, sc.kind = .add → sc.stop = some e → s.holdMark c = e := by
  have hsome : (s.pages.scans.find? fun sc => sc.clipId = c.id && sc.serial = c.serial && sc.rule = .lead) = some sc :=
    List.find?_eq_some_iff_append.mpr ⟨by simpa [reMarks, and_assoc] using hsc, before, later, hs, fun x hx =>
      (Bool.not_eq_true' _).mpr (Bool.eq_false_iff.mpr fun e => hb x hx (by simpa [reMarks, and_assoc] using e))⟩
  exact ⟨fun hk => by simp only [State.holdMark, hsome, hk], fun e hk he => by
    simp only [State.holdMark, hsome, hk, he, Option.getD_some]⟩

theorem releaseInPoints_eq (l : List Page) (moved : Nat) :
    releaseInPoints l moved =
      l.dropLast ++ (l.getLast?.map fun p => { p with clipHolds := p.clipHolds - moved }).toList := by
  unfold releaseInPoints
  cases h : l.getLast? with
  | none => simp [List.getLast?_eq_none_iff.mp h]
  | some p => rfl

/-- A page that may be reclaimed: SEALED and without a hold (R41). -/
abbrev Page.IsSpare (p : Page) : Prop := p.state = .sealed ∧ p.clipHolds + p.anchorPins + p.fetchHolds + p.writeHolds = 0

theorem isSpare_iff {p : Page} : (p.state = .sealed && p.holdCount = 0) = true ↔ p.IsSpare := by
  rw [Bool.and_eq_true, decide_eq_true_eq, decide_eq_true_eq]
  rfl

/-- The reclaim candidate is the oldest spare page, where it is not the newest page (R41). -/
theorem reclaimCandidate_eq_some {older newer : List Page} {p : Page} (hn : newer ≠ []) (hp : p.IsSpare)
    (ho : ∀ q ∈ older, ¬ q.IsSpare) : reclaimCandidate (older ++ p :: newer) = some p := by
  have hd : (older ++ p :: newer).dropLast = older ++ p :: newer.dropLast := by
    rw [List.dropLast_append_of_ne_nil (by simp), List.dropLast_cons_of_ne_nil hn]
  refine List.find?_eq_some_iff_append.mpr ⟨isSpare_iff.mpr hp, older, newer.dropLast, hd, fun q hq => ?_⟩
  exact (Bool.not_eq_true' _).mpr (Bool.eq_false_iff.mpr fun e => ho q hq (isSpare_iff.mp e))

theorem reclaimCandidate_eq_none {l : List Page} (h : ∀ p ∈ l.dropLast, ¬ p.IsSpare) : reclaimCandidate l = none :=
  List.find?_eq_none.mpr fun p hp e => h p hp (isSpare_iff.mp e)

/-- Nothing is drawn at the quota, nor from an empty pool (R40). -/
theorem no_draw {a : Angle} (h : (s.recorder a).quota ≤ (s.pageList a).length ∨ s.pages.pool = []) :
    (if (sealFilling (s.pageList a)).length < (s.recorder a).quota then s.pages.pool.head? else none) = none := by
  rcases h with h | h
  · exact if_neg (by simpa [sealFilling] using h)
  · simp [h]

/-- Settles O12: the hold mark, and the three outcomes of a supply. -/
theorem supplyDrawsOrReclaimsOrStarves : Obligations.SupplyDrawsOrReclaimsOrStarves := by
  refine fun s a frame => ⟨fun c => ⟨holdMark_of_no_reMark, fun before sc later => holdMark_of_reMark⟩,
    fun n rest hq hpool => ?_, fun older p newer hno hl hn hp ho => ?_, fun hno hn => ?_⟩
  · have hdraw : (if (sealFilling (s.pageList a)).length < (s.recorder a).quota then s.pages.pool.head? else none) = some n := by
      simp [sealFilling, hq, hpool]
    simp only [State.supplyPage, hdraw, releaseInPoints_eq]
    rw [hpool]
    rfl
  · have hdraw := no_draw hno
    have hc : reclaimCandidate (sealFilling (s.pageList a)) = some p := by
      have := reclaimCandidate_eq_some hn hp ho
      rwa [← hl] at this
    simp only [State.supplyPage, hdraw, hc, releaseInPoints_eq]
    rfl
  · have hdraw := no_draw hno
    have hc : reclaimCandidate (sealFilling (s.pageList a)) = none := reclaimCandidate_eq_none hn
    simp only [State.supplyPage, hdraw, hc]
    rfl

end Sys2Proof.Machine
end

section
/-! PROOFS. Proofs/Counts.lean: the counts and alert timers that a house frame moves (R16, R30, R149, R151, R163, R164, R172),
and the rows of their ends (notes/assumptions/3.md). -/

namespace Sys2Proof.Machine

variable {s : State}

/-! ### Work angle by angle -/

/-- Work on each angle of a list changes what it sees of an angle once, where the angle is in the list. -/
theorem foldl_view {X : Type} {f : State → Angle → State} (view : State → Angle → X) (g : X → X)
    (hsame : ∀ t b, view (f t b) b = g (view t b)) (hne : ∀ t a b, a ≠ b → view (f t b) a = view t a) {l : List Angle}
    (hn : l.Nodup) (t : State) (a : Angle) : view (l.foldl f t) a = if a ∈ l then g (view t a) else view t a := by
  induction l generalizing t with
  | nil => simp
  | cons b rest ih =>
    obtain ⟨hb, hrest⟩ := List.nodup_cons.mp hn
    rw [List.foldl_cons, ih hrest]
    by_cases hab : a = b
    · subst hab
      simp [hb, hsame]
    · simp [hab, hne t a b hab]

theorem foldl_view_allAngles {X : Type} {f : State → Angle → State} (view : State → Angle → X) (g : X → X)
    (hsame : ∀ t b, view (f t b) b = g (view t b)) (hne : ∀ t a b, a ≠ b → view (f t b) a = view t a) (t : State)
    (a : Angle) : view (allAngles.foldl f t) a = g (view t a) := by
  rw [foldl_view view g hsame hne nodup_allAngles, if_pos (mem_allAngles a)]

/-- What the recorder's work at a house frame leaves alone: all but the record contexts, the record lists, and each link's
ABSENT timers. -/
def RecorderMoves (s u : State) : Prop :=
  (∃ r l k, u = { s with recorders := r, pages := { s.pages with lists := l }, links := k }) ∧
    ∀ k, ∃ x, u.link k = { s.link k with alerts := { (s.link k).alerts with absent := x } }

theorem RecorderMoves.refl (s : State) : RecorderMoves s s := ⟨⟨_, _, _, rfl⟩, fun _ => ⟨_, rfl⟩⟩

theorem RecorderMoves.trans {t u : State} (h : RecorderMoves s t) (k : RecorderMoves t u) : RecorderMoves s u := by
  obtain ⟨⟨_, _, _, hst⟩, hl⟩ := h
  obtain ⟨⟨_, _, _, htu⟩, hk⟩ := k
  refine ⟨⟨_, _, _, by rw [htu, hst]⟩, fun j => ?_⟩
  obtain ⟨x, hx⟩ := hl j
  obtain ⟨y, hy⟩ := hk j
  exact ⟨y, by rw [hy, hx]⟩

theorem RecorderMoves.foldl {f : State → Angle → State} (hf : ∀ t b, RecorderMoves t (f t b)) (l : List Angle) (t : State) :
    RecorderMoves t (l.foldl f t) := by
  induction l generalizing t with
  | nil => exact .refl t
  | cons b rest ih => exact (hf t b).trans (ih _)

/-! ### Alerts -/

theorem raiseAngleAlert_eq (alert : Alert) :
    s.raiseAngleAlert alert =
      { s with links := s.links.map fun l => { l with alerts := l.alerts.set alert 60 } } := by
  have hl : (s.raiseAngleAlert alert).links = s.links.map fun l => { l with alerts := l.alerts.set alert 60 } :=
    vector_ext_get fun k => by
      rw [vector_map_get]
      fin_cases k <;> simp [State.raiseAngleAlert, allStations, State.raiseAlert, State.modLink, vmod_get, alertFrames]
  rw [← hl]
  rfl

theorem link_raiseAngleAlert (alert : Alert) (k : Station) :
    (s.raiseAngleAlert alert).link k = { s.link k with alerts := (s.link k).alerts.set alert 60 } := by
  rw [raiseAngleAlert_eq]
  exact vector_map_get ..

theorem alertTimers_get_set (timers : AlertTimers) (alert other : Alert) (n : Nat) :
    (timers.set alert n).get other = if other = alert then n else timers.get other := by
  cases alert <;> cases other <;> simp [AlertTimers.set, AlertTimers.get, vmod_get]

/-! ### The halt and the silence of angles -/

/-- The record context and the record list of an angle after a halt (R16). -/
def haltView (x : RecContext × List Page) : RecContext × List Page :=
  if x.1.state = .recording then ({ x.1 with state := .halted }, sealFilling x.2) else x

/-- A PRESENT angle goes ABSENT at this raise of its silence count (R30). -/
abbrev RecContext.Goes (r : RecContext) : Prop := r.present = true ∧ 2 ≤ r.silence

/-- The record context of an angle, and its ABSENT timer in each link, after the raise of its silence count (R30, R31). -/
def silenceView (x : RecContext × (Station → Nat)) : RecContext × (Station → Nat) :=
  ({ x.1 with
      present := if x.1.Goes then false else x.1.present
      silence := min 3 (x.1.silence + 1)
      counts := { x.1.counts with
        absences := if x.1.Goes then min (x.1.counts.absences + 1) 4294967295 else x.1.counts.absences } },
    fun k => if x.1.Goes then 60 else x.2 k)

theorem haltAngle_view (t : State) (b : Angle) :
    ((t.haltAngle b).recorder b, (t.haltAngle b).pageList b) = haltView (t.recorder b, t.pageList b) := by
  unfold State.haltAngle haltView
  dsimp only
  split <;> simp [State.sealAngle]

theorem haltAngle_view_ne {t : State} {a b : Angle} (h : a ≠ b) :
    ((t.haltAngle b).recorder a, (t.haltAngle b).pageList a) = (t.recorder a, t.pageList a) := by
  unfold State.haltAngle
  split <;> simp [State.sealAngle, recorder_modRecorder, pageList_modPageList, h]

theorem haltAngle_moves (t : State) (b : Angle) : RecorderMoves t (t.haltAngle b) := by
  unfold State.haltAngle
  split
  · exact ⟨⟨_, _, _, rfl⟩, fun _ => ⟨_, rfl⟩⟩
  · exact .refl t

theorem loseAngle_goes {b : Angle} (h : (s.recorder b).Goes) :
    s.loseAngle b = (s.modRecorder b fun r =>
      { r with present := false, silence := 3
               counts := { r.counts with absences := min (r.counts.absences + 1) 4294967295 } }).raiseAngleAlert
        (.absent b) := by
  obtain ⟨hp, hs⟩ := h
  have hs : silenceLimit ≤ (s.recorder b).silence + 1 := Nat.succ_le_succ hs
  simp only [State.loseAngle, hp, hs, decide_true, Bool.and_self, if_true]
  rfl

theorem raiseSilence_goes {b : Angle} (h : (s.recorder b).Goes) : s.raiseSilence b = s.loseAngle b := by
  obtain ⟨hp, hs⟩ := h
  have hs : silenceLimit ≤ (s.recorder b).silence + 1 := Nat.succ_le_succ hs
  simp [State.raiseSilence, hp, hs]

theorem raiseSilence_stays {b : Angle} (h : ¬ (s.recorder b).Goes) :
    s.raiseSilence b = s.modRecorder b fun r => { r with silence := min 3 (r.silence + 1) } := by
  have h : ¬ ((s.recorder b).present && decide (silenceLimit ≤ (s.recorder b).silence + 1)) = true := by
    rw [Bool.and_eq_true, decide_eq_true_eq]
    exact fun e => h ⟨e.1, Nat.le_of_succ_le_succ e.2⟩
  simp only [State.raiseSilence, h]
  rfl

theorem raiseSilence_view (t : State) (b : Angle) :
    ((t.raiseSilence b).recorder b, fun k => ((t.raiseSilence b).link k).alerts.absent.get b) =
      silenceView (t.recorder b, fun k => (t.link k).alerts.absent.get b) := by
  by_cases h : (t.recorder b).Goes
  · rw [raiseSilence_goes h, loseAngle_goes h]
    have h3 : min 3 ((t.recorder b).silence + 1) = 3 := by have := h.2; omega
    simp only [silenceView, if_pos h, h3, link_raiseAngleAlert]
    refine Prod.ext (recorder_modRecorder_same ..) (funext fun k => ?_)
    simp [AlertTimers.set]
  · rw [raiseSilence_stays h]
    simp only [silenceView, if_neg h]
    refine Prod.ext (recorder_modRecorder_same ..) rfl

theorem raiseSilence_view_ne {t : State} {a b : Angle} (h : a ≠ b) :
    ((t.raiseSilence b).recorder a, fun k => ((t.raiseSilence b).link k).alerts.absent.get a) =
      (t.recorder a, fun k => (t.link k).alerts.absent.get a) := by
  by_cases hg : (t.recorder b).Goes
  · rw [raiseSilence_goes hg, loseAngle_goes hg]
    refine Prod.ext ?_ (funext fun k => ?_)
    · exact (recorder_modRecorder ..).trans (if_neg h)
    · simp [link_raiseAngleAlert, AlertTimers.set, vmod_get, h]
  · rw [raiseSilence_stays hg]
    exact Prod.ext ((recorder_modRecorder ..).trans (if_neg h)) rfl

theorem raiseSilence_moves (t : State) (b : Angle) : RecorderMoves t (t.raiseSilence b) := by
  by_cases hg : (t.recorder b).Goes
  · rw [raiseSilence_goes hg, loseAngle_goes hg]
    refine ⟨⟨_, _, _, by rw [raiseAngleAlert_eq]; rfl⟩, fun k => ⟨_, link_raiseAngleAlert (.absent b) k⟩⟩
  · rw [raiseSilence_stays hg]
    exact ⟨⟨_, _, _, rfl⟩, fun _ => ⟨_, rfl⟩⟩

/-! ### The recorder's work -/

/-- The state after the recorder's halts (R16). -/
def State.haltAll (s : State) : State :=
  if satMax ≤ s.timeBase.houseCount then allAngles.foldl (fun t a => t.haltAngle a) s else s

theorem recorderWork_eq : s.recorderWork = allAngles.foldl (fun t a => t.raiseSilence a) s.haltAll := rfl

theorem haltAll_moves : RecorderMoves s s.haltAll := by
  unfold State.haltAll
  split
  · exact .foldl haltAngle_moves _ _
  · exact .refl s

theorem haltAll_view (a : Angle) :
    (s.haltAll.recorder a, s.haltAll.pageList a) =
      if satMax ≤ s.timeBase.houseCount then haltView (s.recorder a, s.pageList a)
      else (s.recorder a, s.pageList a) := by
  unfold State.haltAll
  split
  · exact foldl_view_allAngles (fun t a => (t.recorder a, t.pageList a)) haltView haltAngle_view
      (fun _ _ _ => haltAngle_view_ne) s a
  · rfl

theorem recorder_haltAll (a : Angle) :
    s.haltAll.recorder a = { s.recorder a with
      state := if satMax ≤ s.timeBase.houseCount ∧ (s.recorder a).state = .recording then .halted
        else (s.recorder a).state } := by
  have h := congrArg Prod.fst (haltAll_view (s := s) a)
  refine h.trans ?_
  by_cases hc : satMax ≤ s.timeBase.houseCount
  · by_cases hr : (s.recorder a).state = .recording <;> simp [hc, hr, haltView]
  · simp [hc]

theorem pageList_haltAll (a : Angle) :
    s.haltAll.pageList a =
      if satMax ≤ s.timeBase.houseCount ∧ (s.recorder a).state = .recording then sealFilling (s.pageList a)
      else s.pageList a := by
  have h := congrArg Prod.snd (haltAll_view (s := s) a)
  refine h.trans ?_
  by_cases hc : satMax ≤ s.timeBase.houseCount
  · by_cases hr : (s.recorder a).state = .recording <;> simp [hc, hr, haltView]
  · simp [hc]

theorem links_haltAll : s.haltAll.links = s.links := by
  have h : ∀ t b, (State.haltAngle t b).links = t.links := fun t b => by
    unfold State.haltAngle
    split <;> rfl
  have hfold : ∀ (l : List Angle) (t : State), (l.foldl (fun t a => t.haltAngle a) t).links = t.links := fun l => by
    induction l with
    | nil => exact fun _ => rfl
    | cons b rest ih => exact fun t => (ih _).trans (h t b)
  unfold State.haltAll
  split
  · exact hfold _ _
  · rfl

theorem recorderWork_view (a : Angle) :
    (s.recorderWork.recorder a, fun k => (s.recorderWork.link k).alerts.absent.get a) =
      silenceView (s.haltAll.recorder a, fun k => (s.link k).alerts.absent.get a) := by
  have hl : ∀ k, s.haltAll.link k = s.link k := fun k => congrArg (fun v : Vector Link 5 => v.get k) links_haltAll
  rw [recorderWork_eq]
  refine (foldl_view_allAngles (f := fun t a => t.raiseSilence a)
    (fun t a => (t.recorder a, fun k => (t.link k).alerts.absent.get a)) silenceView
    raiseSilence_view (fun _ _ _ => raiseSilence_view_ne) s.haltAll a).trans (congrArg silenceView ?_)
  exact Prod.ext rfl (funext fun k => congrArg (fun l : Link => l.alerts.absent.get a) (hl k))

theorem pageList_recorderWork (a : Angle) : s.recorderWork.pageList a = s.haltAll.pageList a := by
  have h : ∀ t b, (State.raiseSilence t b).pages = t.pages := fun t b => by
    by_cases hg : (t.recorder b).Goes
    · rw [raiseSilence_goes hg, loseAngle_goes hg]
      rfl
    · rw [raiseSilence_stays hg]
      rfl
  have hfold : ∀ (l : List Angle) (t : State), (l.foldl (fun t a => t.raiseSilence a) t).pages = t.pages := fun l => by
    induction l with
    | nil => exact fun _ => rfl
    | cons b rest ih => exact fun t => (ih _).trans (h t b)
  exact congrArg (fun p : PageStore => p.lists.get a) (hfold _ _)

theorem recorderWork_moves : RecorderMoves s s.recorderWork :=
  haltAll_moves.trans (.foldl raiseSilence_moves _ _)

/-! ### Cool-downs, claims and links -/

theorem updateCoolDown_some {k : Station} {c : Chan} {run : Nat} (h : s.coolDownRun k c = some run) :
    (s.holder c ≠ none → s.updateCoolDown k c = s.setCoolDown k c (some 0)) ∧
      (s.holder c = none → run = 0 → s.updateCoolDown k c = s.setCoolDown k c (some 1)) ∧
      (s.holder c = none → 1 ≤ run → s.updateCoolDown k c = s.setCoolDown k c none) := by
  refine ⟨fun hh => ?_, fun hh hr => ?_, fun hh hr => ?_⟩
  · simp [State.updateCoolDown, h, Option.isSome_iff_ne_none.mpr hh]
  · simp [State.updateCoolDown, h, hh, hr]
  · simp [State.updateCoolDown, State.endCoolDown, h, hh, hr]

theorem timeOutClaim_old {k : Station} {p : PendingClaim} (h : s.pendingClaim k = some p) (ha : 49 ≤ p.age) :
    s.timeOutClaim k = (s.setPendingClaim k none).answered k .claim .timeout [BitVec.ofNat 8 (p.channel.val + 1)] := by
  have ha : claimLimit ≤ p.age + 1 := Nat.succ_le_succ ha
  simp only [State.timeOutClaim, h, ha, if_true]
  rfl

theorem ageClaim_some {k : Station} {p : PendingClaim} (h : s.pendingClaim k = some p) :
    (p.age < 49 → s.ageClaim k = s.setPendingClaim k (some { p with age := p.age + 1 })) ∧
      (49 ≤ p.age → s.ageClaim k =
        (s.setPendingClaim k none).answered k .claim .timeout [BitVec.ofNat 8 (p.channel.val + 1)]) := by
  refine ⟨fun ha => ?_, fun ha => ?_⟩
  · have ha : ¬ claimLimit ≤ p.age + 1 := Nat.not_le.mpr (Nat.succ_lt_succ ha)
    simp only [State.ageClaim, h, ha, if_false]
  · rw [← timeOutClaim_old h ha]
    have ha : claimLimit ≤ p.age + 1 := Nat.succ_le_succ ha
    simp only [State.ageClaim, h, ha, if_true]

/-- The watch of a link by its state and count (R163, R164). -/
theorem watchLink_cases (k : Station) :
    ((s.link k).state = .off ∨ (s.link k).state = .down → s.watchLink k = s) ∧
    ((s.link k).state = .up → (s.link k).lossCount < 7 →
      s.watchLink k = s.modLink k fun l => { l with lossCount := l.lossCount + 1 }) ∧
    ((s.link k).state = .up → (s.link k).lossCount = 7 → s.watchLink k = s.loseLink k) ∧
    ((s.link k).state = .lost → (s.link k).graceCount < 299 →
      s.watchLink k = s.modLink k fun l => { l with graceCount := l.graceCount + 1 }) ∧
    ((s.link k).state = .lost → (s.link k).graceCount = 299 → s.watchLink k = s.expireGrace k) := by
  refine ⟨fun h => ?_, fun h hc => ?_, fun h hc => ?_, fun h hc => ?_, fun h hc => ?_⟩
  · rcases h with h | h <;> simp [State.watchLink, h]
  · have hc : ¬ lossLimit ≤ (s.link k).lossCount + 1 := Nat.not_le.mpr (Nat.succ_lt_succ hc)
    simp only [State.watchLink, h, hc, if_false]
  · have hc : lossLimit ≤ (s.link k).lossCount + 1 := Nat.le_of_eq (congrArg (· + 1) hc.symm)
    simp only [State.watchLink, h, hc, if_true]
  · have hc : ¬ graceLimit ≤ (s.link k).graceCount + 1 := Nat.not_le.mpr (Nat.succ_lt_succ hc)
    simp only [State.watchLink, h, hc, if_false]
  · have hc : graceLimit ≤ (s.link k).graceCount + 1 := Nat.le_of_eq (congrArg (· + 1) hc.symm)
    simp only [State.watchLink, h, hc, if_true]

/-- Settles O10: the recorder's work angle by angle, the other counts by their cases, and the rows of their ends. -/
theorem countsRiseAndReachTheirEnds : Obligations.CountsRiseAndReachTheirEnds := by
  refine ⟨fun s a => ?_, fun s k c => ⟨fun h => by simp [State.updateCoolDown, h], fun run h => updateCoolDown_some h⟩,
    fun s k => ⟨fun h => by simp [State.ageClaim, h], fun p h => ageClaim_some h⟩, fun s k => ?_,
    fun s alert => ⟨raiseAngleAlert_eq alert, fun _ => rfl, fun _ => rfl, fun timers n other => alertTimers_get_set ..⟩,
    fun s hr => ⟨fun a hp hs => ?_, fun k c hc hh => ?_, fun k p hp ha => ?_, fun k alert h => ?_, fun k => ?_⟩⟩
  · have hview := recorderWork_view (s := s) a
    have hgoes : (s.haltAll.recorder a).Goes ↔ (s.recorder a).Goes := by rw [recorder_haltAll]
    refine ⟨(congrArg Prod.fst hview).trans ?_, (pageList_recorderWork a).trans (pageList_haltAll a), fun k => ?_, ?_, fun k => ?_⟩
    · simp only [silenceView, hgoes]
      rw [recorder_haltAll]
      rfl
    · refine (congrArg (fun x : RecContext × (Station → Nat) => x.2 k) hview).trans ?_
      simp only [silenceView, hgoes]
    · obtain ⟨⟨r, l, ls, h⟩, -⟩ := recorderWork_moves (s := s)
      rw [h]
    · obtain ⟨-, hl⟩ := recorderWork_moves (s := s)
      obtain ⟨x, hx⟩ := hl k
      rw [hx]
  · obtain ⟨hoff, hup, hloss, hlost, hgrace⟩ := watchLink_cases (s := s) k
    refine ⟨hoff, hup, fun h hc hr => ?_, hlost, fun h hc hr => ?_⟩
    · simp only [exec, execLinkLoss, act_released _ hr, hloss h hc]
    · exact act_event hr ((watchLink_cases (s := s.atEvent) k).2.2.2.2 h hc).symm
  · simp only [exec, execAngleAbsent, act_released _ hr, loseAngle_goes ⟨hp, hs.ge⟩]
  · simp [exec, execCoolDownEnd, act_released _ hr, State.endCoolDown, hc, hh]
  · simp only [exec, execClaimTimeout, act_released _ hr, timeOutClaim_old hp ha.ge]
    rfl
  · simp only [exec, execAlertTimerExpiry, act_released _ hr, h, if_true]
  · simp only [exec, execReportTransmissionEnd, act_released _ hr]

end Sys2Proof.Machine
end

section
/-! PROOFS. Proofs/Scans.lean: which pages a hold scan visits (R52, R54), and its queueing, visits and completion (R49, R53,
R63, R75). -/

namespace Sys2Proof.Machine

variable {s : State} {l : List Page}

/-! ### Ascending record lists -/

/-- A record list in ascending order (R39). -/
abbrev Ascending (l : List Page) : Prop := l.Pairwise fun p q => p.firstFrame < q.firstFrame

/-- A test that, met by a page, is met by every page of a later first frame. -/
abbrev UpClosed (beyond : Page → Bool) : Prop := ∀ p q : Page, p.firstFrame < q.firstFrame → beyond p → beyond q

/-- A test that, met by a page, is met by every page of an earlier first frame. -/
abbrev DownClosed (within : Page → Bool) : Prop := ∀ p q : Page, p.firstFrame < q.firstFrame → within q → within p

/-- Where no page is next, no page lies beyond the point and within the bound (R54). -/
theorem filter_of_nextPage_none {beyond within : Page → Bool} (hl : Ascending l) (hw : DownClosed within)
    (h : nextPage l beyond within = none) : (l.filter fun p => beyond p && within p) = [] := by
  induction l with
  | nil => rfl
  | cons p rest ih =>
    obtain ⟨hp, hrest⟩ := List.pairwise_cons.mp hl
    unfold nextPage at h
    by_cases hb : beyond p = true
    · have hpw : within p = false := by simpa [hb] using h
      have hno : ∀ q ∈ rest, within q = false := fun q hq =>
        Bool.eq_false_iff.mpr fun e => Bool.eq_false_iff.mp hpw (hw p q (hp q hq) e)
      rw [List.filter_eq_nil_iff]
      intro q hq
      rcases List.mem_cons.mp hq with rfl | hq
      · simp [hpw]
      · simp [hno q hq]
    · have hb : beyond p = false := Bool.eq_false_iff.mpr hb
      have : nextPage rest beyond within = none := by simpa [nextPage, hb] using h
      simpa [hb] using ih hrest this

/-- Where a page is next, it is the first of those beyond the point and within the bound, and the rest lie beyond it
(R54). -/
theorem filter_of_nextPage_some {beyond within : Page → Bool} {p : Page} (hl : Ascending l) (hb : UpClosed beyond)
    (h : nextPage l beyond within = some p) :
    (l.filter fun q => beyond q && within q) = p :: l.filter fun q => p.firstFrame < q.firstFrame && within q := by
  induction l with
  | nil => simp [nextPage] at h
  | cons x rest ih =>
    obtain ⟨hx, hrest⟩ := List.pairwise_cons.mp hl
    unfold nextPage at h
    by_cases hbx : beyond x = true
    · obtain ⟨hxw, rfl⟩ : within x = true ∧ x = p := by simpa [hbx] using h
      rw [List.filter_cons_of_pos (by simp [hbx, hxw]), List.filter_cons_of_neg (by simp)]
      refine congrArg _ (List.filter_congr fun q hq => ?_)
      simp [hb x q (hx q hq) hbx, hx q hq]
    · have hbx : beyond x = false := Bool.eq_false_iff.mpr hbx
      have hn : nextPage rest beyond within = some p := by simpa [nextPage, hbx] using h
      have hpx : ¬ p.firstFrame < x.firstFrame := fun e => by
        have hp : beyond p = true := by
          have hf : ∃ q, rest.find? beyond = some q ∧ q = p := by
            unfold nextPage at hn
            split at hn
            · next q hq => exact ⟨q, hq, by split at hn <;> simp_all⟩
            · cases hn
          obtain ⟨q, hq, rfl⟩ := hf
          exact List.find?_some hq
        exact Bool.eq_false_iff.mp hbx (hb p x e hp)
      rw [List.filter_cons_of_neg (by simp [hbx]), List.filter_cons_of_neg (by simp [hpx])]
      exact ih hrest hn

theorem upClosed_after (g : Nat) : UpClosed fun p => decide (g < p.firstFrame) := fun p q h hp => by
  simp only [decide_eq_true_eq] at hp ⊢
  omega

theorem upClosed_from (g : Nat) : UpClosed fun p => decide (g ≤ p.firstFrame) := fun p q h hp => by
  simp only [decide_eq_true_eq] at hp ⊢
  omega

theorem downClosed_le (b : Nat) : DownClosed fun p => decide (p.firstFrame ≤ b) := fun p q h hq => by
  simp only [decide_eq_true_eq] at hq ⊢
  omega

theorem downClosed_lt (b : Nat) : DownClosed fun p => decide (p.firstFrame < b) := fun p q h hq => by
  simp only [decide_eq_true_eq] at hq ⊢
  omega

/-- The pages beyond a page that is next are fewer than those beyond the point. -/
theorem length_after_lt {beyond within : Page → Bool} {p : Page} (hl : Ascending l) (hb : UpClosed beyond)
    (h : nextPage l beyond within = some p) :
    (l.filter fun q => decide (p.firstFrame < q.firstFrame)).length < (l.filter beyond).length := by
  have hfind : nextPage l beyond (fun _ => true) = some p := by
    unfold nextPage at h ⊢
    split at h
    · next q hq => split at h <;> simp_all
    · cases h
  have := filter_of_nextPage_some hl hb hfind
  simp only [Bool.and_true] at this
  rw [this]
  exact Nat.lt_succ_self _

/-! ### Visits from a progress point -/

/-- A scan on an angle goes on from page to page within a bound (R54). -/
abbrev GoesOn (l : List Page) (m : Nat) (sc : Scan) (sa : ScanAngle) (within : Page → Bool) : Prop :=
  ∀ g, scanTarget l m sc { sa with progress := some g } =
    (nextPage l (fun p => decide (g < p.firstFrame)) within).map fun p => (p, p.firstFrame)

variable {m : Nat} {sc : Scan} {sa : ScanAngle} {within : Page → Bool}

theorem scanVisits_succ (n : Nat) {p : Page} {g : Nat} (h : scanTarget l m sc sa = some (p, g)) :
    scanVisits l m sc (n + 1) sa = p :: scanVisits l m sc n { sa with progress := some g } := by
  simp [scanVisits, h]

theorem scanVisits_done (n : Nat) (h : scanTarget l m sc sa = none) : scanVisits l m sc n sa = [] := by
  cases n with
  | zero => rfl
  | succ n => simp [scanVisits, h]

/-- From a progress point a scan visits exactly the pages beyond it and within the bound (R54). -/
theorem scanVisits_from (hl : Ascending l) (hw : DownClosed within) (ht : GoesOn l m sc sa within) (n g : Nat)
    (hn : (l.filter fun p => decide (g < p.firstFrame)).length ≤ n) :
    scanVisits l m sc n { sa with progress := some g } = l.filter fun p => decide (g < p.firstFrame) && within p := by
  induction n generalizing g with
  | zero =>
    have : (l.filter fun p => decide (g < p.firstFrame)) = [] := List.eq_nil_of_length_eq_zero (Nat.le_zero.mp hn)
    rw [List.filter_eq_nil_iff] at this
    exact (List.filter_eq_nil_iff.mpr fun p hp e => this p hp (Bool.and_eq_true_iff.mp e).1).symm
  | succ n ih =>
    cases hnext : nextPage l (fun p => decide (g < p.firstFrame)) within with
    | none => rw [scanVisits_done _ (by rw [ht, hnext]; rfl), filter_of_nextPage_none hl hw hnext]
    | some p =>
      rw [scanVisits_succ n (p := p) (g := p.firstFrame) (by rw [ht, hnext]; rfl),
        filter_of_nextPage_some hl (upClosed_after g) hnext]
      refine congrArg _ (ih p.firstFrame ?_)
      have := length_after_lt hl (upClosed_after g) hnext
      omega

/-- A scan whose first visit is that of a progress point visits what it visits from there (R54). -/
theorem scanVisits_start (n g : Nat) (h : scanTarget l m sc sa = scanTarget l m sc { sa with progress := some g }) :
    scanVisits l m sc n sa = scanVisits l m sc n { sa with progress := some g } := by
  cases n with
  | zero => rfl
  | succ n => simp only [scanVisits, h]

/-- The lower page of a frame is in the list and does not lie beyond the frame (R52). -/
theorem lowerPage_mem {frame : Nat} {p : Page} (h : lowerPage l frame = some p) : p ∈ l ∧ p.firstFrame ≤ frame := by
  have := List.mem_filter.mp (List.mem_of_getLast? h)
  simpa using this

/-- A scan that begins at a lower page, or where there is none beyond its start, visits the lower page and the pages beyond
the start and within the bound (R52, R54). -/
theorem scanVisits_lower (hl : Ascending l) (hw : DownClosed within) (ht : GoesOn l m sc sa within) (n lo : Nat)
    (hn : l.length ≤ n) {first : Option Page} (hmem : ∀ p ∈ first, p ∈ l ∧ p.firstFrame ≤ lo)
    (hsome : ∀ p, first = some p → scanTarget l m sc sa = some (p, lo))
    (hnone : first = none → scanTarget l m sc sa = scanTarget l m sc { sa with progress := some lo }) :
    scanVisits l m sc n sa = first.toList ++ l.filter fun p => decide (lo < p.firstFrame) && within p := by
  cases first with
  | none =>
    rw [scanVisits_start n lo (hnone rfl), scanVisits_from hl hw ht n lo (le_trans (List.length_filter_le ..) hn)]
    rfl
  | some p =>
    obtain ⟨hp, hle⟩ := hmem p rfl
    have hlt : (l.filter fun p => decide (lo < p.firstFrame)).length < l.length :=
      List.length_filter_lt_length_iff_exists.mpr ⟨p, hp, by simpa using hle⟩
    obtain ⟨k, rfl⟩ : ∃ k, n = k + 1 := ⟨n - 1, by omega⟩
    rw [scanVisits_succ k (hsome p rfl), scanVisits_from hl hw ht k lo (by omega)]
    rfl

/-- A scan that begins at the first page not below its start visits the pages from it within the bound (R52, R54). -/
theorem scanVisits_tail (hl : Ascending l) (hw : DownClosed within) (ht : GoesOn l m sc sa within) (n lo : Nat)
    (hn : l.length ≤ n)
    (hfirst : scanTarget l m sc sa =
      (nextPage l (fun p => decide (lo ≤ p.firstFrame)) within).map fun p => (p, p.firstFrame)) :
    scanVisits l m sc n sa = l.filter fun p => decide (lo ≤ p.firstFrame) && within p := by
  cases hnext : nextPage l (fun p => decide (lo ≤ p.firstFrame)) within with
  | none => rw [scanVisits_done _ (by rw [hfirst, hnext]; rfl), filter_of_nextPage_none hl hw hnext]
  | some p =>
    have hlt := length_after_lt hl (upClosed_from lo) hnext
    have hle := List.length_filter_le (fun p : Page => decide (lo ≤ p.firstFrame)) l
    obtain ⟨k, rfl⟩ : ∃ k, n = k + 1 := ⟨n - 1, by omega⟩
    rw [scanVisits_succ k (p := p) (g := p.firstFrame) (by rw [hfirst, hnext]; rfl),
      filter_of_nextPage_some hl (upClosed_from lo) hnext]
    exact congrArg _ (scanVisits_from hl hw ht k p.firstFrame (by omega))

/-! ### The visit rules -/

theorem nextPage_never (beyond : Page → Bool) : nextPage l beyond (fun _ => false) = none := by
  unfold nextPage
  split <;> rfl

/-- Settles O14: each visit rule is a first visit and the pages beyond it within a bound. -/
theorem scansVisitThePagesOfTheirRule : Obligations.ScansVisitThePagesOfTheirRule := by
  intro l m sc sa n hl hp hn lo
  refine ⟨fun e hr hs => ?_, fun b hr hs hb => ?_, fun e q hr hs hq => ?_, fun e hr hs hq => ?_, fun e hr hs => ?_,
    fun b hr hs hb => ?_, fun hr hs hb => ?_⟩
  · refine scanVisits_lower hl (downClosed_le _) (fun g => by simp [scanTarget, hr, hs]) n lo hn (fun p => lowerPage_mem)
      (fun p h => ?_) (fun h => ?_)
    · simp [scanTarget, hr, hs, hp, h, lo]
    · simp [scanTarget, hr, hs, hp, h, lo]
  · refine scanVisits_lower hl (downClosed_le _) (fun g => by simp [scanTarget, hr, hs, hb]) n lo hn (fun p h => ?_)
      (fun p h => ?_) (fun h => ?_)
    · obtain ⟨hmem, hle⟩ := lowerPage_mem h
      exact ⟨(List.mem_filter.mp hmem).1, hle⟩
    · simp [scanTarget, hr, hs, hb, hp, h, lo]
    · simp [scanTarget, hr, hs, hb, hp, h, lo]
  · split
    · next h =>
      obtain ⟨p, hlow, hnum⟩ := Option.map_eq_some_iff.mp h
      have hlow : lowerPage l (sc.start * m) = some p := hlow
      exact scanVisits_done n (by simp [scanTarget, hr, hs, hp, hq, hlow, hnum])
    · next h =>
      refine scanVisits_lower hl (downClosed_lt _) (fun g => by simp [scanTarget, hr, hs, hq]) n lo hn
        (fun p => lowerPage_mem) (fun p hlow => ?_) (fun hlow => ?_)
      · have hnum : p.number ≠ q.number := fun e => h (by rw [hlow, ← e]; rfl)
        have hlow : lowerPage l (sc.start * m) = some p := hlow
        simp [scanTarget, hr, hs, hp, hq, hlow, hnum, lo]
      · have hlow : lowerPage l (sc.start * m) = none := hlow
        simp [scanTarget, hr, hs, hp, hq, hlow, lo]
  · exact scanVisits_done n (by simp [scanTarget, hr, hs, hq])
  · exact scanVisits_tail hl (downClosed_le _) (fun g => by simp [scanTarget, hr, hs]) n lo hn
      (by simp [scanTarget, hr, hs, hp, lo])
  · exact scanVisits_tail hl (downClosed_le _) (fun g => by simp [scanTarget, hr, hs, hb]) n lo hn
      (by simp [scanTarget, hr, hs, hb, hp, lo])
  · refine scanVisits_done n ?_
    cases hrule : sc.rule with
    | lead => exact absurd hrule hr
    | cover => simp [scanTarget, hrule, hs, hb, hp, nextPage_never, lowerPage]
    | tail => simp [scanTarget, hrule, hs, hb, hp, nextPage_never]

/-! ### Queueing -/

/-- The page number of the head page of an angle for a start, if the angle has a page (R53). -/
def State.headNumber (s : State) (start : Nat) (a : Angle) : Option Nat :=
  ((lowerPage (s.pageList a) (start * (s.recorder a).rateMultiple)).or (s.pageList a).head?).map (·.number)

theorem headNumber_modPage? {f : Page → Page} (hf : KeepsPlaces f) (n : Option Nat) (start : Nat) (a : Angle) :
    (s.modPage? n f).headNumber start a = s.headNumber start a := by
  cases n with
  | none => rfl
  | some n =>
    have hg := keepsPlaces_if hf n
    have hl : (s.modPage n f).pageList a = (s.pageList a).map fun p => if p.number = n then f p else p := by simp
    have hr : (s.modPage n f).recorder a = s.recorder a := rfl
    have hn : ∀ o : Option Page, (o.map fun p => if p.number = n then f p else p).map (·.number) = o.map (·.number) :=
      fun o => by cases o with
        | none => rfl
        | some p => exact congrArg some (hg p).2
    simp only [State.modPage?, State.headNumber, hl, hr, lowerPage_map hg, List.head?_map]
    rw [Option.map_or, Option.map_or, hn, hn]

/-- The head holds of a list of angles fall on the head pages as they stand before the first of them (R53). -/
theorem headHolds_eq (start : Nat) (angles : List Angle) (t : State)
    (h : ∀ a, t.headNumber start a = s.headNumber start a) :
    angles.foldl (fun t a => t.headHold start a) t =
      angles.foldl (fun t a => t.modPage? (s.headNumber start a) fun p => { p with clipHolds := p.clipHolds + 1 }) t := by
  induction angles generalizing t with
  | nil => rfl
  | cons a rest ih =>
    have hone : t.headHold start a =
        t.modPage? (s.headNumber start a) fun p => { p with clipHolds := p.clipHolds + 1 } := by
      rw [← h a]
      rfl
    rw [List.foldl_cons, List.foldl_cons, hone]
    refine ih _ fun b => ?_
    rw [headNumber_modPage? (f := fun p => { p with clipHolds := p.clipHolds + 1 }) fun _ => ⟨rfl, rfl⟩]
    exact h b

theorem scans_headHolds (start : Nat) (angles : List Angle) (t : State) :
    (angles.foldl (fun t a => t.headHold start a) t).pages.scans = t.pages.scans := by
  induction angles generalizing t with
  | nil => rfl
  | cons a rest ih =>
    rw [List.foldl_cons, ih]
    unfold State.headHold State.modPage?
    dsimp only
    split <;> rfl

/-! ### Settling -/

theorem angleRest_eq (sc : Scan) (angles : List ScanAngle) :
    s.angleRest sc angles = angles.dropWhile fun sa => (s.nextVisit sc sa).isNone := by
  induction angles with
  | nil => rfl
  | cons sa rest ih =>
    unfold State.angleRest
    rw [List.dropWhile_cons]
    cases h : s.nextVisit sc sa <;> simp [ih]

theorem scanCompleted_pages (id serial : Nat) : (s.scanCompleted id serial).pages = s.pages := by
  unfold State.scanCompleted State.raiseGeneration
  repeat' split
  all_goals rfl

theorem scanCompleted_recorders (id serial : Nat) : (s.scanCompleted id serial).recorders = s.recorders := by
  unfold State.scanCompleted State.raiseGeneration
  repeat' split
  all_goals rfl

theorem settleScans_nil (h : s.pages.scans = []) : s.settleScans = s := by
  unfold State.settleScans
  rw [h]
  unfold State.settleFrom
  rw [← h]

theorem settleScans_running {sc : Scan} {rest : List Scan} (h : s.pages.scans = sc :: rest)
    (hl : (sc.angles.dropWhile fun sa => (s.nextVisit sc sa).isNone) ≠ []) :
    s.settleScans = { s with pages := { s.pages with
      scans := { sc with angles := sc.angles.dropWhile fun sa => (s.nextVisit sc sa).isNone } :: rest } } := by
  unfold State.settleScans
  rw [h]
  unfold State.settleFrom
  rw [← angleRest_eq] at hl ⊢
  split
  · next e => exact absurd e hl
  · rfl

theorem settleScans_finished {sc : Scan} {rest : List Scan} (h : s.pages.scans = sc :: rest)
    (hl : (sc.angles.dropWhile fun sa => (s.nextVisit sc sa).isNone) = []) :
    s.settleScans =
      (({ s with pages := { s.pages with scans := rest } } : State).scanCompleted sc.clipId sc.serial).settleScans := by
  rw [State.settleScans, h, State.settleFrom, angleRest_eq, hl]
  dsimp only
  rw [State.settleScans, scanCompleted_pages]

theorem angleRest_congr {t : State} (hp : t.pages = s.pages) (hr : t.recorders = s.recorders) (sc : Scan)
    (angles : List ScanAngle) : t.angleRest sc angles = s.angleRest sc angles := by
  have h : t.nextVisit sc = s.nextVisit sc := by
    unfold State.nextVisit State.pageList State.recorder
    rw [hp, hr]
  rw [angleRest_eq, angleRest_eq, h]

/-- Settling moves the page store by the page store and the record contexts alone. -/
theorem settleFrom_pages_congr (scans : List Scan) (s t : State) (hp : t.pages = s.pages)
    (hr : t.recorders = s.recorders) : (t.settleFrom scans).pages = (s.settleFrom scans).pages := by
  induction scans generalizing s t with
  | nil => simp only [State.settleFrom, hp]
  | cons sc rest ih =>
    unfold State.settleFrom
    rw [angleRest_congr hp hr]
    split
    · refine ih _ _ ?_ ?_
      · rw [scanCompleted_pages, scanCompleted_pages, hp]
      · rw [scanCompleted_recorders, scanCompleted_recorders, hr]
    · rw [hp]

theorem settleScans_recorders : s.settleScans.recorders = s.recorders :=
  frame_settleScans (m := [.pages, .clips]) (by decide) (by decide) (Frame.refl _ s) .recorders (by decide)

theorem settleFrom_mismatches (scans : List Scan) (s : State) :
    (s.settleFrom scans).pages.mismatches = s.pages.mismatches := by
  induction scans generalizing s with
  | nil => rfl
  | cons sc rest ih =>
    unfold State.settleFrom
    split
    · rw [ih, scanCompleted_pages]
    · rfl

/-- The mark that an event leaves on the clip table bears no part in settling the page store. -/
theorem settleScans_atEvent_pages : s.atEvent.settleScans.pages = s.settleScans.pages :=
  settleFrom_pages_congr s.pages.scans s s.atEvent rfl rfl

/-! ### Visits -/

theorem visitPage_add {kind : ScanKind} (hk : kind = .add) (p : Page) :
    s.visitPage kind p = s.modPage p.number fun q => { q with clipHolds := q.clipHolds + 1 } := by
  subst hk
  rfl

theorem visitPage_remove {kind : ScanKind} {p : Page} (hk : kind = .remove) (h : p.clipHolds ≠ 0) :
    s.visitPage kind p = s.modPage p.number fun q => { q with clipHolds := q.clipHolds - 1 } := by
  subst hk
  exact if_neg h

theorem visitPage_mismatch {kind : ScanKind} {p : Page} (hk : kind = .remove) (h : p.clipHolds = 0) :
    s.visitPage kind p =
      { s with pages := { s.pages with mismatches := min (s.pages.mismatches + 1) 4294967295 } } := by
  subst hk
  exact if_pos h

theorem scanVisit_idle (h : s.settleScans.pages.scans = []) : s.scanVisit = s.settleScans := by
  unfold State.scanVisit
  dsimp only
  rw [h]

theorem scanVisit_running {sc : Scan} {rest : List Scan} {sa : ScanAngle} {more : List ScanAngle} {p : Page} {g : Nat}
    (h : s.settleScans.pages.scans = sc :: rest) (ha : sc.angles = sa :: more)
    (hv : s.settleScans.nextVisit sc sa = some (p, g)) :
    s.scanVisit =
      (({ s.settleScans with pages := { s.settleScans.pages with
          scans := { sc with angles := { sa with progress := some g } :: more } :: rest } } : State).visitPage sc.kind
        p).settleScans := by
  unfold State.scanVisit
  dsimp only
  rw [h]
  dsimp only
  rw [ha]
  dsimp only
  rw [hv]

/-- Settles O15: queueing, settling, the visits and the completion. -/
theorem scansAreQueuedVisitedAndCompleted : Obligations.ScansAreQueuedVisitedAndCompleted := by
  refine ⟨fun s c kind rule start stop atOnce => ?_, fun s => ⟨settleScans_nil, fun sc rest h =>
    ⟨settleScans_running h, settleScans_finished h, fun sa n => ?_⟩⟩, fun s hr => ⟨fun h hraised => ?_, fun h => ?_,
    fun sc rest sa more p g h ha hv => ?_⟩, fun s id serial => ⟨fun h => ?_, fun c h => ⟨fun hn => ?_, fun hn hc => ?_,
    fun hn hc => ?_, fun hn h1 h2 => ?_⟩⟩⟩
  · intro head scan held
    have hheld : (if atOnce then c.angles.foldl (fun t a => t.headHold start a) s else s) = held := by
      cases atOnce with
      | false => rfl
      | true => exact headHolds_eq start c.angles s fun _ => rfl
    have hscans : held.pages.scans = s.pages.scans := by
      rw [← hheld]
      split
      · exact scans_headHolds ..
      · rfl
    have hangles : c.angles.map (s.scanAngle stop.isNone atOnce start) = scan.angles := by
      cases stop <;> rfl
    unfold State.queueScan
    dsimp only
    rw [hheld, hscans, hangles]
  · rfl
  · refine (act_event (g := fun u => u) hr ?_).trans ?_
    · rw [scanVisit_idle] <;> rw [settleScans_nil (s := s.atEvent) h]
      exact h
    · simp only [State.inEvent]
      rw [← hraised]
  · refine act_event hr (scanVisit_idle ?_)
    rw [settleScans_atEvent_pages, h]
  · intro on
    have hu : s.atEvent.settleScans.pages = s.settleScans.pages := settleScans_atEvent_pages
    have hm : s.atEvent.settleScans.pages.mismatches = s.atEvent.pages.mismatches := settleFrom_mismatches ..
    have hvisit : s.atEvent.settleScans.nextVisit sc sa = some (p, g) := by
      rw [← hv]
      unfold State.nextVisit State.pageList State.recorder
      rw [hu, settleScans_recorders, settleScans_recorders]
    have hrun := scanVisit_running (s := s.atEvent) (hu ▸ h) ha hvisit
    refine ⟨fun hk => act_event hr (hrun.trans ?_), fun hk h0 => act_event hr (hrun.trans ?_),
      fun hk h0 => act_event hr (hrun.trans ?_)⟩
    · exact congrArg State.settleScans (visitPage_add hk p)
    · exact congrArg State.settleScans (visitPage_remove hk (Nat.ne_of_gt h0))
    · rw [← hm]
      exact congrArg State.settleScans (visitPage_mismatch hk h0)
  · simp only [State.scanCompleted, h]
  · have : c.scansPending - 1 ≠ 0 := by omega
    simp only [State.scanCompleted, h, this, if_false]
  · simp only [State.scanCompleted, h, hn, hc, if_true]
  · simp only [State.scanCompleted, h, hn, hc, if_true]
  · have h0 : c.scansPending - 1 = 0 := by omega
    simp only [State.scanCompleted, h, h0, if_true]

end Sys2Proof.Machine
end

section
/-! PROOFS. Proofs/Clips.lean: marks and material (R64, R65), and ids, serials and the table generation (R61,
R62). -/

namespace Sys2Proof.Machine

variable {s : State}

/-! ### Material -/

/-- An angle holds a frame in one of its pages. -/
abbrev State.HoldsFrame (s : State) (a : Angle) (n : Nat) : Prop :=
  ∃ p ∈ s.pageList a, p.firstFrame ≤ n ∧ n < p.firstFrame + p.count

/-- The pages of a record list that is in order: they hold frames, and do not overlap (R39). -/
abbrev InOrder (l : List Page) : Prop :=
  l.Pairwise (fun p q => p.firstFrame + p.count ≤ q.firstFrame) ∧ ∀ p ∈ l, 0 < p.count

/-- A house frame has material on an angle where the angle holds a frame of it (R65). -/
theorem hasMaterial_iff {h : Nat} {a : Angle} (hm : 0 < (s.recorder a).rateMultiple) (hl : InOrder (s.pageList a)) :
    s.hasMaterial h a = true ↔
      ∃ n, s.HoldsFrame a n ∧ h * (s.recorder a).rateMultiple ≤ n ∧ n ≤ (h + 1) * (s.recorder a).rateMultiple - 1 := by
  have hmul : (h + 1) * (s.recorder a).rateMultiple = h * (s.recorder a).rateMultiple + (s.recorder a).rateMultiple :=
    Nat.succ_mul ..
  simp only [State.hasMaterial, List.any_eq_true, Bool.and_eq_true, decide_eq_true_eq]
  constructor
  · rintro ⟨p, hp, hlt, hgt⟩
    have := hl.2 p hp
    exact ⟨max p.firstFrame (h * (s.recorder a).rateMultiple), ⟨p, hp, by omega, by omega⟩, by omega, by omega⟩
  · rintro ⟨n, ⟨p, hp, hle, hlt⟩, hlo, hhi⟩
    exact ⟨p, hp, by omega, by omega⟩

/-- The next material is that of the least frame an angle holds at or above the house frame (R65). -/
theorem nextMaterial_some {h t : Nat} {a : Angle} (hl : InOrder (s.pageList a)) (ht : s.nextMaterial h a = some t) :
    ∃ k, s.HoldsFrame a k ∧ h * (s.recorder a).rateMultiple ≤ k ∧ k / (s.recorder a).rateMultiple = t ∧
      ∀ n, s.HoldsFrame a n → h * (s.recorder a).rateMultiple ≤ n → k ≤ n := by
  obtain ⟨p, hfind, rfl⟩ := Option.map_eq_some_iff.mp ht
  obtain ⟨hp, older, newer, hlist, hold⟩ := List.find?_eq_some_iff_append.mp hfind
  simp only [decide_eq_true_eq] at hp
  have hmem : p ∈ s.pageList a := by simp [hlist]
  have hc := hl.2 p hmem
  refine ⟨max p.firstFrame (h * (s.recorder a).rateMultiple), ⟨p, hmem, by omega, by omega⟩, by omega, rfl, ?_⟩
  rintro n ⟨q, hq, hle, hlt⟩ hn
  rw [hlist] at hq
  rcases List.mem_append.mp hq with hq | hq
  · have := hold q hq
    simp only [Bool.not_eq_true', decide_eq_false_iff_not] at this
    omega
  · rcases List.mem_cons.mp hq with rfl | hq
    · omega
    · have hpair := (List.pairwise_append.mp (hlist ▸ hl.1)).2.1
      have := (List.pairwise_cons.mp hpair).1 q hq
      omega

theorem nextMaterial_isSome {h n : Nat} {a : Angle} (hn : s.HoldsFrame a n)
    (hle : h * (s.recorder a).rateMultiple ≤ n) : ∃ t, s.nextMaterial h a = some t := by
  obtain ⟨p, hp, hpn, hlt⟩ := hn
  refine Option.isSome_iff_exists.mp ?_
  simp only [State.nextMaterial, Option.isSome_map, List.find?_isSome, decide_eq_true_eq]
  exact ⟨p, hp, by omega⟩

theorem trimMark_material {angles : List Angle} {h : Nat} (hm : ∃ a ∈ angles, s.hasMaterial h a = true) :
    s.trimMark angles h = (h, false) := by
  simp only [State.trimMark, List.any_eq_true.mpr hm, if_true]

theorem trimMark_moved {angles : List Angle} {h : Nat} (hm : ∀ a ∈ angles, ¬ s.hasMaterial h a = true) :
    s.trimMark angles h =
      ((angles.filterMap (s.nextMaterial h)).min?.getD h, (angles.filterMap (s.nextMaterial h)).min?.isSome) := by
  have : ¬ angles.any (s.hasMaterial h) = true := fun e => by
    obtain ⟨a, ha, h⟩ := List.any_eq_true.mp e
    exact hm a ha h
  simp only [State.trimMark, this]
  cases (angles.filterMap (s.nextMaterial h)).min? <;> rfl

/-- Settles O18: the mark by the selected channel, and the trimming by the three cases of material. -/
theorem marksAreTrimmedToMaterial : Obligations.MarksAreTrimmedToMaterial := by
  refine fun s => ⟨fun stn h => by simp [State.mark, h, State.newestComplete], fun stn c hc =>
    ⟨fun h => by simp [State.mark, hc, h, State.newestComplete], fun h hh => by
      simp [State.mark, hc, hh, State.newestComplete]⟩, fun angles h hm hl => ?_⟩
  intro heldFrame m
  refine ⟨fun hmat => ?_, fun hnone => ?_, fun a n ha hn hle hleast => ?_⟩
  · obtain ⟨a, ha, n, hn, hlo, hhi⟩ := hmat
    exact trimMark_material ⟨a, ha, (hasMaterial_iff (hm a ha) (hl a ha)).mpr ⟨n, hn, hlo, hhi⟩⟩
  · have hno : ∀ a ∈ angles, ¬ s.hasMaterial h a = true := fun a ha e => by
      obtain ⟨n, hn, hlo, -⟩ := (hasMaterial_iff (hm a ha) (hl a ha)).mp e
      exact absurd (hnone a ha n hn) (Nat.not_lt.mpr hlo)
    have hempty : angles.filterMap (s.nextMaterial h) = [] := by
      refine List.filterMap_eq_nil_iff.mpr fun a ha => Option.eq_none_iff_forall_ne_some.mpr fun t ht => ?_
      obtain ⟨k, hk, hlo, -, -⟩ := nextMaterial_some (hl a ha) ht
      exact absurd (hnone a ha k hk) (Nat.not_lt.mpr hlo)
    rw [trimMark_moved hno, hempty]
    rfl
  · have hno : ∀ b ∈ angles, ¬ s.hasMaterial h b = true := fun b hb e => by
      obtain ⟨k, hk, hlo, hhi⟩ := (hasMaterial_iff (hm b hb) (hl b hb)).mp e
      have hbeyond : (h + 1) * (s.recorder b).rateMultiple ≤ k := (hleast b hb k hk hlo).1
      have hpos : 0 < (h + 1) * (s.recorder b).rateMultiple := Nat.mul_pos (Nat.succ_pos h) (hm b hb)
      omega
    have hmn : h * m a ≤ n := le_trans (Nat.mul_le_mul_right _ (Nat.le_succ h)) hle
    have hmin : (angles.filterMap (s.nextMaterial h)).min? = some (n / m a) := by
      refine List.min?_eq_some_iff.mpr ⟨?_, fun t ht => ?_⟩
      · obtain ⟨t, ht⟩ := nextMaterial_isSome hn hmn
        obtain ⟨k, hk, hlo, hkt, hkle⟩ := nextMaterial_some (hl a ha) ht
        have h1 : n / m a ≤ t := hkt ▸ (hleast a ha k hk hlo).2
        have h2 : t ≤ n / m a := hkt ▸ Nat.div_le_div_right (hkle n hn hmn)
        exact List.mem_filterMap.mpr ⟨a, ha, by rw [ht, Nat.le_antisymm h1 h2]⟩
      · obtain ⟨b, hb, ht⟩ := List.mem_filterMap.mp ht
        obtain ⟨k, hk, hlo, hkt, -⟩ := nextMaterial_some (hl b hb) ht
        exact hkt ▸ (hleast b hb k hk hlo).2
    rw [trimMark_moved hno, hmin]
    rfl

/-! ### Ids, serials and the table generation -/

theorem freeId_eq_some_iff (i : Nat) :
    s.freeId = some i ↔
      1 ≤ i ∧ i ≤ 512 ∧ (∀ c ∈ s.clips.clips, c.id ≠ i) ∧ ∀ j, 1 ≤ j → j < i → ∃ c ∈ s.clips.clips, c.id = j := by
  unfold State.freeId
  rw [List.find?_range'_eq_some]
  simp only [List.mem_range', Bool.not_eq_true', List.any_eq_false, decide_eq_true_eq, Bool.not_not, List.any_eq_true]
  constructor
  · rintro ⟨hfree, ⟨k, hk, rfl⟩, hleast⟩
    exact ⟨by omega, by omega, hfree, hleast⟩
  · rintro ⟨h1, h512, hfree, hleast⟩
    exact ⟨hfree, ⟨i - 1, by omega, by omega⟩, hleast⟩

/-- The serial that lies `k` places after the serial counter (R61). -/
abbrev State.serialAt (s : State) (k : Nat) : Nat := (s.clips.serialCounter - 1 + k) % 65535 + 1

theorem serialAt_surjective {x : Nat} (h1 : 1 ≤ s.clips.serialCounter) (h2 : s.clips.serialCounter ≤ 65535) (hx1 : 1 ≤ x)
    (hx2 : x ≤ 65535) : ∃ k, k < 65535 ∧ s.serialAt k = x :=
  ⟨(x + 65535 - s.clips.serialCounter) % 65535, Nat.mod_lt _ (by decide), by simp only [State.serialAt]; omega⟩

theorem freeSerial_first (h1 : 1 ≤ s.clips.serialCounter) (h2 : s.clips.serialCounter ≤ 65535)
    (hfree : ∃ x, 1 ≤ x ∧ x ≤ 65535 ∧ ∀ c ∈ s.clips.clips, c.serial ≠ x) :
    ∃ k, s.freeSerial = s.serialAt k ∧ (∀ c ∈ s.clips.clips, c.serial ≠ s.freeSerial) ∧
      ∀ j, j < k → ∃ c ∈ s.clips.clips, c.serial = s.serialAt j := by
  obtain ⟨x, hx1, hx2, hx⟩ := hfree
  obtain ⟨k, hk, hkx⟩ := serialAt_surjective h1 h2 hx1 hx2
  cases hfind : (List.range' 0 65535).find? fun k => !(s.clips.clips.any fun c => c.serial = s.serialAt k) with
  | none =>
    have := List.find?_eq_none.mp hfind k (List.mem_range'.mpr ⟨k, hk, by omega⟩)
    simp only [Bool.not_eq_true', Bool.not_eq_false, List.any_eq_true, decide_eq_true_eq] at this
    obtain ⟨c, hc, hserial⟩ := this
    exact absurd (hserial.trans hkx) (hx c hc)
  | some j =>
    have hserial : s.freeSerial = s.serialAt j := by
      unfold State.freeSerial
      dsimp only
      rw [hfind]
    obtain ⟨hno, -, hleast⟩ := List.find?_range'_eq_some.mp hfind
    simp only [Bool.not_eq_true', List.any_eq_false, decide_eq_true_eq, Bool.not_not, List.any_eq_true] at hno hleast
    exact ⟨j, hserial, fun c hc => hserial ▸ hno c hc, fun i hi => hleast i (Nat.zero_le i) hi⟩

theorem raiseGeneration_first (h : s.clips.raised = false) :
    s.raiseGeneration =
      { s with clips := { s.clips with generation := (s.clips.generation + 1) % 65536, raised := true } } := by
  simp only [State.raiseGeneration, h, Bool.false_eq_true, if_false]

theorem raiseGeneration_again (h : s.clips.raised = true) : s.raiseGeneration = s := by
  simp only [State.raiseGeneration, h, if_true]

theorem raiseGeneration_serialCounter : s.raiseGeneration.clips.serialCounter = s.clips.serialCounter := by
  unfold State.raiseGeneration
  split <;> rfl

/-- Settles O19: the least free id, the first free serial, and the one raise of an event. -/
theorem idsSerialsAndGenerations : Obligations.IdsSerialsAndGenerations := by
  refine ⟨fun s => ⟨freeId_eq_some_iff, freeSerial_first, fun c => ?_⟩,
    fun s => ⟨raiseGeneration_first, raiseGeneration_again⟩, fun s f => rfl⟩
  rw [State.addClip, raiseGeneration_serialCounter]

end Sys2Proof.Machine
end

section
/-! PROOFS. Proofs/ClipCommands.lean: MARK IN and MARK OUT (R66 to R70), the commands on a named clip (R72 to R79), and its use
count (R74, R80, R86). -/

namespace Sys2Proof.Machine

variable {s : State} {stn : Station}

/-! ### MARK IN and MARK OUT -/

theorem beBytes_four_zero : beBytes 4 0 = [0, 0, 0, 0] := by decide

/-- A MARK IN that is heard does what its rule does, as an event (R66, R67). -/
theorem exec_markIn {g : State → State} {r : Result} {data : List Byte} (h : s.hears stn)
    (hb : (s.atEvent.counted stn).takeMarkIn stn = (g (s.atEvent.counted stn), { result := some r, data := data })) :
    exec (.markIn stn) s = .next (s.inEvent fun u => (g (u.counted stn)).answered stn .markIn r data) :=
  event_answers (body := fun s => s.takeMarkIn stn) h (.inl rfl) rfl hb

/-- A MARK OUT that is heard does what its rule does, as an event (R68 to R70). -/
theorem exec_markOut {g : State → State} {r : Result} {data : List Byte} (h : s.hears stn)
    (hb : (s.atEvent.counted stn).takeMarkOut stn = (g (s.atEvent.counted stn), { result := some r, data := data })) :
    exec (.markOut stn) s = .next (s.inEvent fun u => (g (u.counted stn)).answered stn .markOut r data) :=
  event_answers (body := fun s => s.takeMarkOut stn) h (.inl rfl) rfl hb

@[simp] theorem openClip_atEvent (j : Station) : s.atEvent.openClip j = s.openClip j := rfl
@[simp] theorem freeId_atEvent : s.atEvent.freeId = s.freeId := rfl
@[simp] theorem freeSerial_atEvent : s.atEvent.freeSerial = s.freeSerial := rfl
@[simp] theorem mark_atEvent (j : Station) : s.atEvent.mark j = s.mark j := rfl
@[simp] theorem findClip_atEvent (id serial : Nat) : s.atEvent.findClip id serial = s.findClip id serial := rfl

/-- Settles O16: creation, and the re-mark in the three orders of the marks. -/
theorem markInCreatesOrReMarks : Obligations.MarkInCreatesOrReMarks := by
  refine ⟨fun s stn h ho => ⟨fun hf => ?_, fun id hf => ?_⟩, fun s stn c h ho => ?_⟩
  · refine exec_markIn (g := fun u => u) h ?_
    simp only [State.takeMarkIn, openClip_counted, openClip_atEvent, ho, State.createOpen, freeId_counted,
      freeId_atEvent, hf]
    rfl
  · intro angles mark c
    refine exec_markIn (g := fun u =>
      (((u.addClip c).modOpenCounts angles (· + 1)).queueScan c .add .cover mark.1 none true).settleScans) h ?_
    have hdata : markData c =
        beBytes 2 id ++ beBytes 2 s.freeSerial ++ beBytes 4 mark.1 ++ [if mark.2 then 1 else 0] ++ [0, 0, 0, 0] := by
      rw [← beBytes_four_zero]
      rfl
    rw [← hdata]
    simp only [State.takeMarkIn, openClip_counted, openClip_atEvent, ho, State.createOpen, freeId_counted,
      freeId_atEvent, hf, freeSerial_counted, freeSerial_atEvent, mark_counted, mark_atEvent, trimMark_counted]
    rfl
  · intro mark data moved
    have hre : (s.atEvent.counted stn).takeMarkIn stn = (s.atEvent.counted stn).reMark stn c := by
      simp only [State.takeMarkIn, openClip_counted, openClip_atEvent, ho]
    refine ⟨fun hp => exec_markIn (g := fun u => u) h (hre.trans ?_), fun hp hm => ?_, fun hp hm => ?_, fun hp hm => ?_⟩
    · simp only [State.reMark, hp, if_true]
      rfl
    · refine exec_markIn (g := fun u => u) h (hre.trans ?_)
      simp only [State.reMark, hp, mark_counted, mark_atEvent, lt_irrefl, if_false]
      rw [if_pos hm, show mark = c.inMark from hm]
      rfl
    · refine exec_markIn (g := fun u => ((u.modClip c.id c.serial fun d =>
        { d with inMark := mark, trimmed := false }).raiseGeneration.queueScan c .add .lead mark (some c.inMark)
          false).settleScans) h (hre.trans ?_)
      simp only [State.reMark, hp, mark_counted, mark_atEvent, lt_irrefl, if_false]
      rw [if_neg (Nat.ne_of_lt hm), if_pos hm]
      rfl
    · refine exec_markIn (g := fun u => ((u.modClip c.id c.serial fun d =>
        { d with inMark := mark, trimmed := false }).raiseGeneration.queueScan c .remove .lead c.inMark (some mark)
          false).settleScans) h (hre.trans ?_)
      simp only [State.reMark, hp, mark_counted, mark_atEvent, lt_irrefl, if_false]
      rw [if_neg (Nat.ne_of_gt hm), if_neg (Nat.lt_asymm hm)]
      rfl

/-- The close of an OPEN clip with given marks (R68, R69). -/
def State.closed (s : State) (c : Clip) (inMark outMark : Nat) (scan : State → State) : State :=
  ((scan ((s.modClip c.id c.serial fun d =>
      { d with state := .closing, inMark := inMark, outMark := some outMark }).raiseGeneration.modOpenCounts c.angles
        (· - 1))).queueScan c .remove .tail (outMark + 1) none false).settleScans

/-- The result data of a MARK OUT that closes a clip (R81). -/
abbrev closedData (c : Clip) (inMark outMark : Nat) : List Byte :=
  beBytes 2 c.id ++ beBytes 2 c.serial ++ beBytes 4 inMark ++ [if c.trimmed then 1 else 0] ++ beBytes 4 outMark

theorem closeMarks_above {c : Clip} {mark : Nat} (h : c.inMark ≤ mark) :
    closeMarks c mark = (c.inMark, min mark (c.inMark + 1048574)) := by
  simp [closeMarks, Nat.not_lt.mpr h, maxLength]

theorem closeMarks_swapped {c : Clip} {mark : Nat} (h : mark < c.inMark) (hp : c.scansPending = 0) :
    closeMarks c mark = (mark, min c.inMark (mark + 1048574)) := by
  simp [closeMarks, h, hp, maxLength]

theorem closeMarks_pending {c : Clip} {mark : Nat} (h : mark < c.inMark) (hp : 0 < c.scansPending) :
    closeMarks c mark = (c.inMark, c.inMark) := by
  have h0 : ¬ c.scansPending = 0 := Nat.ne_of_gt hp
  simp [closeMarks, h, h0]

/-- The close of an OPEN clip by the marks it takes: with a LEAD scan where its in mark moves (R68, R69). -/
theorem closeClip_eq {c : Clip} {mark inMark outMark : Nat} (h : closeMarks c mark = (inMark, outMark)) :
    (c.inMark ≤ inMark → s.closeClip c mark = (s.closed c inMark outMark id, .okWith (closedData c inMark outMark))) ∧
      (inMark < c.inMark →
        s.closeClip c mark = (s.closed c inMark outMark fun t => t.queueScan c .add .lead inMark (some c.inMark) false,
          .okWith (closedData c inMark outMark))) := by
  refine ⟨fun hle => ?_, fun hlt => ?_⟩
  · simp only [State.closeClip, h, if_neg (Nat.not_lt.mpr hle)]
    rfl
  · simp only [State.closeClip, h, if_pos hlt]
    rfl

theorem exec_markOut_closes {c : Clip} {inMark outMark : Nat} {scan : State → State} (h : s.hears stn)
    (ho : s.openClip stn = some c)
    (hc : ∀ u : State, u.closeClip c (s.mark stn) = (u.closed c inMark outMark scan, .okWith (closedData c inMark outMark))) :
    exec (.markOut stn) s =
      .next (s.inEvent fun u =>
        ((u.counted stn).closed c inMark outMark scan).answered stn .markOut .ok (closedData c inMark outMark)) := by
  refine exec_markOut (g := fun u => u.closed c inMark outMark scan) h ?_
  simp only [State.takeMarkOut, openClip_counted, openClip_atEvent, ho, mark_counted, mark_atEvent]
  exact hc _

/-- Settles O17: the marks of a close in the three orders, and the creation at the preroll length. -/
theorem markOutClosesOrCreates : Obligations.MarkOutClosesOrCreates := by
  refine ⟨fun s stn c h ho => ?_, fun s stn h ho => ⟨fun hf => ?_, fun id hf => ?_⟩⟩
  · intro mark closed
    exact ⟨fun hm => exec_markOut_closes (scan := id) h ho fun u => (closeClip_eq (closeMarks_above hm)).1 le_rfl,
      fun hm hp => exec_markOut_closes (scan := fun t => t.queueScan c .add .lead mark (some c.inMark) false) h ho fun u =>
        (closeClip_eq (closeMarks_swapped hm hp)).2 hm,
      fun hm hp => exec_markOut_closes (scan := id) h ho fun u => (closeClip_eq (closeMarks_pending hm hp)).1 le_rfl⟩
  · refine exec_markOut (g := fun u => u) h ?_
    simp only [State.takeMarkOut, openClip_counted, openClip_atEvent, ho, State.createClosing, freeId_counted,
      freeId_atEvent, hf]
    rfl
  · intro angles out inMark c
    refine exec_markOut (g := fun u =>
      ((u.addClip c).queueScan c .add .cover inMark (some out) false).settleScans) h ?_
    simp only [State.takeMarkOut, openClip_counted, openClip_atEvent, ho, State.createClosing, freeId_counted,
      freeId_atEvent, hf, freeSerial_counted, freeSerial_atEvent, mark_counted, mark_atEvent]
    rfl

/-! ### Commands on a named clip -/

theorem ownsClip_taken {id serial : BitVec 16} {c : Clip} (h : s.ownsClip stn id serial c) :
    (s.atEvent.counted stn).ownsClip stn id serial c := h

theorem exec_protect {wanted : Bool} {id serial : BitVec 16} {c : Clip} {g : State → State} {r : Result}
    (h : s.hears stn) (ho : s.ownsClip stn id serial c)
    (hb : protectRule wanted c (s.atEvent.counted stn) = (g (s.atEvent.counted stn), .plain r)) :
    exec (if wanted then .protect stn id serial else .unprotect stn id serial) s =
      .next (s.inEvent fun u => (g (u.counted stn)).answered stn (if wanted then .protect else .unprotect) r []) := by
  cases wanted with
  | true => exact event_answers h (.inl rfl) rfl ((onClip_owns (ownsClip_taken ho)).trans hb)
  | false => exact event_answers h (.inl rfl) rfl ((onClip_owns (ownsClip_taken ho)).trans hb)

theorem exec_delete {id serial : BitVec 16} {c : Clip} {g : State → State} {r : Result} (h : s.hears stn)
    (ho : s.ownsClip stn id serial c)
    (hb : deleteRule c (s.atEvent.counted stn) = (g (s.atEvent.counted stn), .plain r)) :
    exec (.delete stn id serial) s =
      .next (s.inEvent fun u => (g (u.counted stn)).answered stn .delete r []) :=
  event_answers h (.inl rfl) rfl ((onClip_owns (ownsClip_taken ho)).trans hb)

/-- A clip whose scan is pending, or that is CLOSING, is busy (R72, R73). -/
theorem clipBusy_iff (c : Clip) :
    (decide (0 < c.scansPending) || decide (c.state = .closing)) = true ↔ 0 < c.scansPending ∨ c.state = .closing := by
  simp

theorem protectRule_wrongState {wanted : Bool} {c : Clip}
    (h : c.state = .opened ∨ c.state = .retiring ∨ c.state = .deleting) :
    protectRule wanted c s = (s, .plain .wrongState) :=
  if_pos (by simpa [or_assoc] using h)

theorem protectRule_busy {wanted : Bool} {c : Clip} (h : c.state = .closed ∨ c.state = .closing)
    (hb : 0 < c.scansPending ∨ c.state = .closing) : protectRule wanted c s = (s, .plain .clipBusy) := by
  unfold protectRule
  rw [if_neg (by rcases h with h | h <;> simp [h]), if_pos ((clipBusy_iff c).mpr hb)]

theorem protectRule_idle {wanted : Bool} {c : Clip} (h : c.state = .closed)
    (hb : ¬ (0 < c.scansPending ∨ c.state = .closing)) :
    protectRule wanted c s =
      if c.isProtected = wanted then (s, .plain .ok)
      else
        (((s.modClip c.id c.serial fun d => { d with isProtected := wanted }).raiseGeneration.queueScan c
          (if wanted then .add else .remove) .cover c.inMark c.outMark false).settleScans, .plain .ok) := by
  unfold protectRule
  rw [if_neg (by simp [h]), if_neg fun e => hb ((clipBusy_iff c).mp e)]

theorem deleteRule_wrongState {c : Clip} (h : c.state = .retiring ∨ c.state = .deleting) :
    deleteRule c s = (s, .plain .wrongState) :=
  if_pos (by simpa using h)

theorem deleteRule_busy {c : Clip} (h1 : c.state ≠ .retiring) (h2 : c.state ≠ .deleting)
    (hb : 0 < c.scansPending ∨ c.state = .closing) : deleteRule c s = (s, .plain .clipBusy) := by
  unfold deleteRule
  rw [if_neg (by simp [h1, h2]), if_pos ((clipBusy_iff c).mpr hb)]

theorem deleteRule_idle {c : Clip} (h1 : c.state ≠ .retiring) (h2 : c.state ≠ .deleting)
    (hb : ¬ (0 < c.scansPending ∨ c.state = .closing)) :
    deleteRule c s =
      if c.state = .opened then ((s.modOpenCounts c.angles (· - 1)).startDeletion c, .plain .ok)
      else if 0 < c.useCount then
        ((s.modClip c.id c.serial fun d => { d with state := .retiring }).raiseGeneration, .plain .ok)
      else if c.isProtected then (s.startDeletion c, .plain .ok)
      else (s.removeClip c, .plain .ok) := by
  unfold deleteRule
  rw [if_neg (by simp [h1, h2]), if_neg fun e => hb ((clipBusy_iff c).mp e)]

/-- Settles O21: PROTECT and UNPROTECT, and DELETE, by the state of the clip. -/
theorem protectionAndDeletion : Obligations.ProtectionAndDeletion := by
  refine ⟨fun s stn id serial c wanted h ho => ?_, fun s stn id serial c h ho => ?_⟩
  · intro i kind busy
    refine ⟨fun hs => exec_protect (g := fun u => u) h ho (protectRule_wrongState hs),
      fun hs hb => exec_protect (g := fun u => u) h ho (protectRule_busy hs hb),
      fun hs hb hw => exec_protect (g := fun u => u) h ho ((protectRule_idle hs hb).trans (if_pos hw)),
      fun hs hb hw => exec_protect (g := fun u =>
        ((u.modClip c.id c.serial fun d => { d with isProtected := wanted }).raiseGeneration.queueScan c
          (if wanted then .add else .remove) .cover c.inMark c.outMark false).settleScans) h ho
        ((protectRule_idle hs hb).trans (if_neg hw))⟩
  · intro busy deleting answer
    have hclosed : c.state = .closed → ¬ busy → ∀ u : State, deleteRule c u =
        if 0 < c.useCount then
          ((u.modClip c.id c.serial fun d => { d with state := .retiring }).raiseGeneration, .plain .ok)
        else if c.isProtected then (u.startDeletion c, .plain .ok)
        else (u.removeClip c, .plain .ok) := fun hs hb u =>
      (deleteRule_idle (by simp [hs]) (by simp [hs]) hb).trans (if_neg (by simp [hs]))
    refine ⟨fun hs => exec_delete (g := fun u => u) h ho (deleteRule_wrongState hs),
      fun h1 h2 hb => exec_delete (g := fun u => u) h ho (deleteRule_busy h1 h2 hb),
      fun hs hb => exec_delete (g := fun u => (u.modOpenCounts c.angles (· - 1)).startDeletion c) h ho
        ((deleteRule_idle (by simp [hs]) (by simp [hs]) hb).trans (if_pos hs)),
      fun hs hb hu => exec_delete (g := fun u => (u.modClip c.id c.serial fun d =>
        { d with state := .retiring }).raiseGeneration) h ho ((hclosed hs hb _).trans (if_pos hu)),
      fun hs hb hu hp => exec_delete (g := fun u => u.startDeletion c) h ho
        ((hclosed hs hb _).trans ((if_neg (by omega)).trans (if_pos hp))),
      fun hs hb hu hp => exec_delete (g := fun u => u.removeClip c) h ho
        ((hclosed hs hb _).trans ((if_neg (by omega)).trans (if_neg (by simp [hp]))))⟩

/-! ### Fields of a clip -/

section
variable {id serial : BitVec 16} {c : Clip} {g : State → State} {r : Result}

theorem exec_label {text : List (BitVec 7)} (h : s.hears stn) (ho : s.ownsClip stn id serial c) (ht : text.length ≤ 25)
    (hb : labelRule text c (s.atEvent.counted stn) = (g (s.atEvent.counted stn), .plain r)) :
    exec (.label stn id serial text) s = .next (s.inEvent fun u => (g (u.counted stn)).answered stn .label r []) :=
  event_answers h (.inl rfl) (decide_eq_true ht) ((onClip_owns (ownsClip_taken ho)).trans hb)

theorem exec_tagAdd {tag : Byte} (h : s.hears stn) (ho : s.ownsClip stn id serial c)
    (hb : tagAddRule tag c (s.atEvent.counted stn) = (g (s.atEvent.counted stn), .plain r)) :
    exec (.tagAdd stn id serial tag) s = .next (s.inEvent fun u => (g (u.counted stn)).answered stn .tagAdd r []) :=
  event_answers h (.inl rfl) rfl ((onClip_owns (ownsClip_taken ho)).trans hb)

theorem exec_tagRemove {tag : Byte} (h : s.hears stn) (ho : s.ownsClip stn id serial c)
    (hb : tagRemoveRule tag c (s.atEvent.counted stn) = (g (s.atEvent.counted stn), .plain r)) :
    exec (.tagRemove stn id serial tag) s =
      .next (s.inEvent fun u => (g (u.counted stn)).answered stn .tagRemove r []) :=
  event_answers h (.inl rfl) rfl ((onClip_owns (ownsClip_taken ho)).trans hb)

theorem exec_hero {angle : Byte} (h : s.hears stn) (ho : s.ownsClip stn id serial c)
    (hb : heroRule angle c (s.atEvent.counted stn) = (g (s.atEvent.counted stn), .plain r)) :
    exec (.hero stn id serial angle) s = .next (s.inEvent fun u => (g (u.counted stn)).answered stn .hero r []) :=
  event_answers h (.inl rfl) rfl ((onClip_owns (ownsClip_taken ho)).trans hb)

theorem isLeaving_iff : c.isLeaving = true ↔ c.state = .retiring ∨ c.state = .deleting := by
  simp [Clip.isLeaving]

/-- The rules of R76 to R78 refuse a clip that is leaving the table. -/
theorem fieldRules_leaving (h : c.state = .retiring ∨ c.state = .deleting) (text : List (BitVec 7)) (b : Byte) :
    labelRule text c s = (s, .plain .wrongState) ∧ tagAddRule b c s = (s, .plain .wrongState) ∧
      tagRemoveRule b c s = (s, .plain .wrongState) ∧ heroRule b c s = (s, .plain .wrongState) :=
  ⟨if_pos (isLeaving_iff.mpr h), if_pos (isLeaving_iff.mpr h), if_pos (isLeaving_iff.mpr h),
    if_pos (isLeaving_iff.mpr h)⟩

theorem labelRule_stays (h : ¬ (c.state = .retiring ∨ c.state = .deleting)) (text : List (BitVec 7)) :
    (¬ (text.length ≤ 24 ∧ ∀ x ∈ text, 32 ≤ x.toNat ∧ x.toNat ≤ 126) →
      labelRule text c s = (s, .plain .badArgument)) ∧
    ((text.length ≤ 24 ∧ ∀ x ∈ text, 32 ≤ x.toNat ∧ x.toNat ≤ 126) →
      labelRule text c s = (s.editClip c { c with label := text }, .plain .ok)) := by
  have hl : ¬ c.isLeaving = true := fun e => h (isLeaving_iff.mp e)
  have hp : (decide (24 < text.length) || !text.all isPrintable) = true ↔
      ¬ (text.length ≤ 24 ∧ ∀ x ∈ text, 32 ≤ x.toNat ∧ x.toNat ≤ 126) := by
    rw [Bool.or_eq_true, Bool.not_eq_true', Bool.eq_false_iff, Ne, List.all_eq_true, decide_eq_true_eq,
      Classical.not_and_iff_not_or_not, Nat.not_le]
    simp only [isPrintable, Bool.and_eq_true, decide_eq_true_eq]
  exact ⟨fun hn => (if_neg hl).trans (if_pos (hp.mpr hn)), fun hy => (if_neg hl).trans (if_neg fun e => hp.mp e hy)⟩

theorem tagRules_zero (h : ¬ (c.state = .retiring ∨ c.state = .deleting)) :
    tagAddRule 0 c s = (s, .plain .badArgument) ∧ tagRemoveRule 0 c s = (s, .plain .badArgument) := by
  have hl : ¬ c.isLeaving = true := fun e => h (isLeaving_iff.mp e)
  exact ⟨(if_neg hl).trans (if_pos rfl), (if_neg hl).trans (if_pos rfl)⟩

theorem tagAddRule_stays (h : ¬ (c.state = .retiring ∨ c.state = .deleting)) {tag : Byte} (ht : tag ≠ 0) :
    (tag ∈ c.tags → tagAddRule tag c s = (s, .plain .ok)) ∧
    (tag ∉ c.tags → 4 ≤ c.tags.length → tagAddRule tag c s = (s, .plain .listFull)) ∧
    (tag ∉ c.tags → c.tags.length < 4 →
      tagAddRule tag c s = (s.editClip c { c with tags := c.tags ++ [tag] }, .plain .ok)) := by
  have hl : ¬ c.isLeaving = true := fun e => h (isLeaving_iff.mp e)
  have hc : c.tags.contains tag = true ↔ tag ∈ c.tags := List.contains_iff_mem
  have hrule : tagAddRule tag c s = if c.tags.contains tag then (s, .plain .ok) else
      if 4 ≤ c.tags.length then (s, .plain .listFull)
      else (s.editClip c { c with tags := c.tags ++ [tag] }, .plain .ok) := (if_neg hl).trans (if_neg ht)
  exact ⟨fun hm => hrule.trans (if_pos (hc.mpr hm)),
    fun hm h4 => hrule.trans ((if_neg fun e => hm (hc.mp e)).trans (if_pos h4)),
    fun hm h4 => hrule.trans ((if_neg fun e => hm (hc.mp e)).trans (if_neg (Nat.not_le.mpr h4)))⟩

theorem tagRemoveRule_stays (h : ¬ (c.state = .retiring ∨ c.state = .deleting)) {tag : Byte} (ht : tag ≠ 0) :
    tagRemoveRule tag c s = (s.editClip c { c with tags := c.tags.filter fun t => t != tag }, .plain .ok) :=
  (if_neg fun e => h (isLeaving_iff.mp e)).trans (if_neg ht)

theorem heroRule_bad (h : ¬ (c.state = .retiring ∨ c.state = .deleting)) {angle : Byte}
    (ha : ∀ a, angleOf? angle.toNat = some a → a ∉ c.angles) : heroRule angle c s = (s, .plain .badArgument) := by
  unfold heroRule
  rw [if_neg fun e => h (isLeaving_iff.mp e)]
  cases hangle : angleOf? angle.toNat with
  | none => rfl
  | some a => exact if_neg fun e => ha a hangle (List.contains_iff_mem.mp e)

theorem heroRule_taken (h : ¬ (c.state = .retiring ∨ c.state = .deleting)) {angle : Byte} {a : Angle}
    (ha : angleOf? angle.toNat = some a) (hm : a ∈ c.angles) :
    heroRule angle c s = (s.editClip c { c with hero := a }, .plain .ok) := by
  unfold heroRule
  rw [if_neg fun e => h (isLeaving_iff.mp e), ha]
  exact if_pos (List.contains_iff_mem.mpr hm)

end

/-- An edit of a clip changes the record and raises the generation, unless the record stays as it is (R62, R76 to R78). -/
theorem editClip_changed {c d : Clip} (h : d ≠ c) :
    s.editClip c d = (s.modClip c.id c.serial fun _ => d).raiseGeneration := if_neg h

theorem editClip_same {c d : Clip} (h : d = c) : s.editClip c d = s := if_pos h

theorem onClip_none {id serial : BitVec 16} {rule : Clip → State → State × Reply}
    (h : s.findClip id.toNat serial.toNat = none) : onClip stn id serial rule s = (s, .plain .noClip) := by
  simp only [onClip, h]

theorem onClip_notOwner {id serial : BitVec 16} {rule : Clip → State → State × Reply} {c : Clip}
    (h : s.findClip id.toNat serial.toNat = some c) (ho : stn ≠ c.owner) (h0 : stn ≠ 0) :
    onClip stn id serial rule s = (s, .plain .notOwner) := by
  have : ¬ (decide (stn = c.owner) || decide (stn = 0)) = true := by simp [ho, h0]
  simp only [onClip, h, this]
  rfl

/-- A command on a named clip that R79 refuses is answered with the refusal. -/
theorem exec_onClip_refused {id serial : BitVec 16} {kind : CommandKind} {i : Instr} {r : Result} (h : s.hears stn)
    (hi : (kind, i) ∈ [(.protect, .protect stn id serial), (.unprotect, .unprotect stn id serial),
          (.delete, Instr.delete stn id serial)] ∨
        (∃ text, text.length ≤ 25 ∧ (kind, i) = (.label, .label stn id serial text)) ∨
        (∃ tag, (kind, i) ∈ [(.tagAdd, .tagAdd stn id serial tag), (.tagRemove, .tagRemove stn id serial tag),
          (.hero, Instr.hero stn id serial tag)]))
    (hr : ∀ rule, onClip stn id serial rule (s.atEvent.counted stn) = (s.atEvent.counted stn, .plain r)) :
    exec i s = .next (s.inEvent fun u => (u.counted stn).answered stn kind r []) := by
  simp only [List.mem_cons, List.not_mem_nil, or_false, Prod.mk.injEq] at hi
  rcases hi with (⟨rfl, rfl⟩ | ⟨rfl, rfl⟩ | ⟨rfl, rfl⟩) | ⟨text, ht, rfl, rfl⟩ |
    ⟨tag, ⟨rfl, rfl⟩ | ⟨rfl, rfl⟩ | ⟨rfl, rfl⟩⟩
  case inr.inl => exact event_answers (g := fun u => u) h (.inl rfl) (decide_eq_true ht) (hr _)
  all_goals exact event_answers (g := fun u => u) h (.inl rfl) rfl (hr _)

/-- Settles O22: the four edits by their rules, and the two refusals of R79. -/
theorem clipFieldsAreCheckedAndEdited : Obligations.ClipFieldsAreCheckedAndEdited := by
  refine ⟨fun s stn id serial c h ho => ?_, fun s stn id serial kind i h hi => ⟨fun hf =>
    exec_onClip_refused h hi fun rule => onClip_none hf, fun c hf hown h0 =>
    exec_onClip_refused h hi fun rule => onClip_notOwner hf hown h0⟩⟩
  intro edited refused leaving
  have hedit : ∀ (kind : CommandKind) (i : Instr) (d : Clip),
      (∀ g : State → State, (s.atEvent.counted stn).editClip c d = g (s.atEvent.counted stn) →
        exec i s = .next (s.inEvent fun u => (g (u.counted stn)).answered stn kind .ok [])) → edited kind i d :=
    fun kind i d hx => ⟨fun hd => hx (fun u => (u.modClip c.id c.serial fun _ => d).raiseGeneration) (editClip_changed hd),
      fun hd => hx (fun u => u) (editClip_same hd)⟩
  refine ⟨fun text ht => ?_, fun tag => ⟨fun hl => ?_, fun hl h0 => ?_, fun hl h0 => ⟨fun hm => ?_, fun hm h4 => ?_,
    fun hm h4 => ?_, ?_⟩⟩, fun angle => ⟨fun hl => ?_, fun hl ha => ?_, fun a hl ha hm => ?_⟩⟩
  · intro printable
    refine ⟨fun hl => exec_label (g := fun u => u) h ho ht (fieldRules_leaving hl text 0).1,
      fun hl hp => exec_label (g := fun u => u) h ho ht ((labelRule_stays hl text).1 hp),
      fun hl hp => hedit _ _ _ fun g hg => exec_label h ho ht ?_⟩
    rw [(labelRule_stays hl text).2 hp, hg]
  · obtain ⟨-, hadd, hremove, -⟩ := fieldRules_leaving (s := s.atEvent.counted stn) hl [] tag
    exact ⟨exec_tagAdd (g := fun u => u) h ho hadd, exec_tagRemove (g := fun u => u) h ho hremove⟩
  · subst h0
    obtain ⟨hadd, hremove⟩ := tagRules_zero (s := s.atEvent.counted stn) hl
    exact ⟨exec_tagAdd (g := fun u => u) h ho hadd, exec_tagRemove (g := fun u => u) h ho hremove⟩
  · exact exec_tagAdd (g := fun u => u) h ho ((tagAddRule_stays hl h0).1 hm)
  · exact exec_tagAdd (g := fun u => u) h ho ((tagAddRule_stays hl h0).2.1 hm h4)
  · refine hedit _ _ _ fun g hg => exec_tagAdd h ho ?_
    rw [(tagAddRule_stays hl h0).2.2 hm h4, hg]
  · refine hedit _ _ _ fun g hg => exec_tagRemove h ho ?_
    rw [tagRemoveRule_stays hl h0, hg]
  · exact exec_hero (g := fun u => u) h ho (fieldRules_leaving hl [] angle).2.2.2
  · exact exec_hero (g := fun u => u) h ho (heroRule_bad hl ha)
  · refine hedit _ _ _ fun g hg => exec_hero h ho ?_
    rw [heroRule_taken hl ha hm, hg]

/-! ### Use counts -/

/-- A present clip found by an id and a serial has them. -/
theorem findClip_id {id serial : Nat} {c : Clip} (h : s.findClip id serial = some c) : c.id = id ∧ c.serial = serial := by
  simpa using List.find?_some h

/-- Settles O23: a channel that leaves CLIP, by what becomes of the clip. -/
theorem useCountsFollowTheChannels : Obligations.UseCountsFollowTheChannels := by
  intro s c h ctx clip hh hm hf left
  obtain ⟨hid, hserial⟩ := findClip_id hf
  have hleave : s.leaveClip c = (s.modChan c fun ch => { ch with staged := false }).dropUse clip.id clip.serial := by
    simp only [State.leaveClip, hh, hm, hid, hserial]
  have hfound : (s.modChan c fun ch => { ch with staged := false }).findClip clip.id clip.serial = some clip := by
    rw [hid, hserial]
    exact hf
  have hdrop : s.leaveClip c = if clip.state = .retiring && clip.useCount - 1 = 0 then
      if clip.isProtected then left.startDeletion clip else left.removeClip clip else left := by
    rw [hleave]
    simp only [State.dropUse, hfound]
    rfl
  refine ⟨fun hs => hdrop.trans (if_neg ?_), fun hs hu hp => ?_, fun hs hu hp => ?_, rfl⟩
  · rw [Bool.and_eq_true, decide_eq_true_eq, decide_eq_true_eq]
    rcases hs with hs | hs
    · exact fun e => hs e.1
    · exact fun e => absurd e.2 (by omega)
  · rw [hdrop]
    simp only [hs, hu, hp]
    rfl
  · rw [hdrop]
    simp only [hs, hu, hp]
    rfl

end Sys2Proof.Machine
end

section
/-! PROOFS. Proofs/Playheads.lean: spans (R51), the pin of a written playhead (R47, R107), and the moves of a leader's followers
(R109). -/

namespace Sys2Proof.Machine

variable {s : State}

/-! ### Spans and clamps -/

theorem span_of_page {a : Angle} {p : Page} {later : List Page} {e : Nat} (hl : s.pageList a = p :: later)
    (he : (s.recorder a).liveEdge = some e) :
    s.span a = if e < p.firstFrame then none else some (p.firstFrame * s.frameSpan a, e * s.frameSpan a) := by
  simp only [State.span, hl, he, List.head?_cons]

theorem span_none {a : Angle} (h : s.pageList a = [] ∨ (s.recorder a).liveEdge = none) : s.span a = none := by
  rcases h with h | h
  · simp only [State.span, h, List.head?_nil]
  · simp only [State.span, h]
    cases (s.pageList a).head? <;> rfl

/-- Within an ordered span a clamp is the nearer end, and tells whether it cut (R97). -/
theorem clampTo_some {pmin pmax x : Nat} (h : pmin ≤ pmax) :
    clampTo (some (pmin, pmax)) x = (max pmin (min pmax x), decide (x < pmin ∨ pmax < x)) := by
  unfold clampTo
  dsimp only
  rcases lt_or_ge pmax x with h1 | h1
  · rw [if_pos (by exact_mod_cast h1)]
    refine Prod.ext ?_ (by simp [h1])
    dsimp only
    omega
  · rw [if_neg (by exact_mod_cast Nat.not_lt.mpr h1)]
    rcases lt_or_ge x pmin with h2 | h2
    · rw [if_pos (by exact_mod_cast h2)]
      refine Prod.ext ?_ (by simp [h2])
      dsimp only
      omega
    · rw [if_neg (by exact_mod_cast Nat.not_lt.mpr h2)]
      refine Prod.ext ?_ (by simp [h1, h2])
      dsimp only
      omega

/-! ### Pins -/

theorem movePin_ne {old new : Option Nat} (h : old ≠ new) :
    s.movePin old new = { s with pages := { s.pages with lists := s.pages.lists.map fun l => l.map fun p =>
      { p with anchorPins :=
          if old = some p.number then p.anchorPins - 1
          else if new = some p.number then p.anchorPins + 1
          else p.anchorPins } } } := by
  have hlists : ∀ {t : State} (f : List Page → List Page),
      (∀ a, t.pageList a = f (s.pageList a)) → t = { s with pages := { s.pages with lists := t.pages.lists } } →
      t = { s with pages := { s.pages with lists := s.pages.lists.map f } } := fun {t} f hf ht => by
    have : t.pages.lists = s.pages.lists.map f := vector_ext_get fun a => (hf a).trans (vector_map_get ..).symm
    rw [ht, this]
  refine hlists _ (fun a => ?_) ?_
  · rw [State.movePin, if_neg h]
    cases old with
    | none =>
      cases new with
      | none => exact absurd rfl h
      | some n =>
        simp only [State.modPage?, pageList_modPage]
        refine List.map_congr_left fun p _ => ?_
        rcases eq_or_ne p.number n with rfl | hp
        · simp
        · simp [hp, hp.symm]
    | some o =>
      cases new with
      | none =>
        simp only [State.modPage?, pageList_modPage]
        refine List.map_congr_left fun p _ => ?_
        rcases eq_or_ne p.number o with rfl | hp
        · simp
        · simp [hp, hp.symm]
      | some n =>
        have hon : o ≠ n := fun e => h (congrArg some e)
        simp only [State.modPage?, pageList_modPage, List.map_map]
        refine List.map_congr_left fun p _ => ?_
        rcases eq_or_ne p.number o with rfl | hp
        · simp [hon]
        · rcases eq_or_ne p.number n with rfl | hn
          · simp [hp, hp.symm]
          · simp [hp, hn, hp.symm, hn.symm]
  · rw [State.movePin, if_neg h]
    cases old <;> cases new <;> rfl

/-! ### Leaders and followers -/

@[simp] theorem followersOf_modHead (c d : Chan) (f : Playhead → Playhead) :
    (s.modHead c f).followersOf d = s.followersOf d := by
  simp only [State.followersOf, State.modHead, chan_modChan]
  by_cases h : d = c
  · subst h; simp
  · simp [h]

theorem place_eq (c : Chan) (h : Playhead) :
    s.place c h = (s.followersOf c).foldl (fun t f => t.followOne c f) (s.writeHead c h) := by
  rw [State.place, State.moveFollowers, followersOf_writeHead]

theorem steer_eq (c : Chan) (g : Playhead → Playhead) :
    s.steer c g = (s.followersOf c).foldl (fun t f => t.followOne c f) (s.modHead c g) := by
  rw [State.steer, State.moveFollowers, followersOf_modHead]

theorem place_alone {c : Chan} (hf : s.followersOf c = []) (h : Playhead) : s.place c h = s.writeHead c h := by
  rw [place_eq, hf]
  rfl

theorem steer_alone {c : Chan} (hf : s.followersOf c = []) (g : Playhead → Playhead) : s.steer c g = s.modHead c g := by
  rw [steer_eq, hf]
  rfl

theorem chan_modHead (c d : Chan) (g : Playhead → Playhead) :
    (s.modHead c g).chan d = if d = c then { s.chan c with head := (s.chan c).head.map g } else s.chan d := by
  simp only [State.modHead, chan_modChan]
  split
  · next e => subst e; rfl
  · rfl

theorem chan_place_ne {c d : Chan} (hd : d ≠ c) (hf : d ∉ s.followersOf c) (h : Playhead) :
    (s.place c h).chan d = s.chan d := by
  rw [place_eq, chan_followers_ne _ _ _ hf, chan_writeHead, if_neg hd]

theorem chan_steer_ne {c d : Chan} (hd : d ≠ c) (hf : d ∉ s.followersOf c) (g : Playhead → Playhead) :
    (s.steer c g).chan d = s.chan d := by
  rw [steer_eq, chan_followers_ne _ _ _ hf, chan_modHead, if_neg hd]

theorem chan_place_same {c : Chan} (hf : c ∉ s.followersOf c) (h : Playhead) :
    (s.place c h).chan c = { s.chan c with head := some { h with anchor := s.anchorPage h.angle h.position } } := by
  rw [place_eq, chan_followers_ne _ _ _ hf, chan_writeHead, if_pos rfl]

theorem chan_steer_same {c : Chan} (hf : c ∉ s.followersOf c) (g : Playhead → Playhead) :
    (s.steer c g).chan c = { s.chan c with head := (s.chan c).head.map g } := by
  rw [steer_eq, chan_followers_ne _ _ _ hf, chan_modHead, if_pos rfl]

/-- The playhead a follower is given from its leader's, with its anchor (R47, R109). -/
def State.followed (s : State) (leader follower : Playhead) : Playhead :=
  { s.followHead leader follower with
    anchor := s.anchorPage follower.angle (s.followHead leader follower).position }

theorem followed_congr {t : State} (hs : ∀ a, t.span a = s.span a) (ha : ∀ a p, t.anchorPage a p = s.anchorPage a p)
    (leader follower : Playhead) : t.followed leader follower = s.followed leader follower := by
  simp only [State.followed, followHead_congr hs, ha]

section
variable {c f : Chan} {hf : Playhead} (hc : c ∉ s.followersOf c) (hn : (s.followersOf c).Nodup)
  (hm : f ∈ s.followersOf c) (hh : (s.chan f).head = some hf)
include hc hn hm hh

/-- A follower of a channel whose playhead is written is moved after it (R109). -/
theorem head_place_follower (h : Playhead) : ((s.place c h).chan f).head = some (s.followed h hf) := by
  have hfc : f ≠ c := fun e => hc (e ▸ hm)
  have h1 : ((s.writeHead c h).chan c).head = some { h with anchor := s.anchorPage h.angle h.position } := by
    rw [chan_writeHead, if_pos rfl]
  have h2 : ((s.writeHead c h).chan f).head = some hf := by rw [chan_writeHead, if_neg hfc, hh]
  rw [place_eq, head_followers _ _ hm hn hc h1 h2]
  exact congrArg some (followed_congr (fun a => span_writeHead c h a) (fun a p => anchorPage_writeHead c h a p) _ hf)

/-- A follower of a channel whose state or speed changes is moved after it (R109). -/
theorem head_steer_follower (g : Playhead → Playhead) {old : Playhead} (ho : (s.chan c).head = some old) :
    ((s.steer c g).chan f).head = some (s.followed (g old) hf) := by
  have hfc : f ≠ c := fun e => hc (e ▸ hm)
  have h1 : ((s.modHead c g).chan c).head = some (g old) := by rw [chan_modHead, if_pos rfl, ho]; rfl
  have h2 : ((s.modHead c g).chan f).head = some hf := by rw [chan_modHead, if_neg hfc, hh]
  rw [steer_eq, head_followers _ _ hm hn hc h1 h2]
  exact congrArg some (followed_congr (t := s.modHead c g) (fun _ => rfl) (fun _ _ => rfl) _ hf)

end

/-- Settles O24: spans, pins, and what a write or a change of state does to a channel, its followers and the others. -/
theorem playheadsMoveTheirPinsAndFollowers : Obligations.PlayheadsMoveTheirPinsAndFollowers := by
  refine ⟨fun s a => ⟨fun p later e hl he => ⟨fun hle => ?_, fun hlt => ?_⟩, span_none⟩, fun s c h g => ?_⟩
  · rw [span_of_page hl he, if_neg (Nat.not_lt.mpr hle)]
    rfl
  · rw [span_of_page hl he, if_pos hlt]
  · intro anchor followed
    refine ⟨fun old => if_pos rfl, fun old new => movePin_ne, rfl, fun hf => ⟨place_alone hf h, steer_alone hf g⟩,
      fun hc => ⟨by rw [chan_place_same hc]; rfl, chan_steer_same hc g⟩, fun d hd hf => ⟨chan_place_ne hd hf h, chan_steer_ne hd hf g⟩,
      fun f hf hc hn hm hh hspan => ?_⟩
    have hfollowed : ∀ x : Playhead, s.followed x hf = followed x hf := fun x => by
      unfold State.followed State.followHead followMode
      dsimp only [followed]
      cases hs : s.span hf.angle with
      | none => cases hx : x.mode <;> simp [State.liveEnd, hs, clampTo, anchor, State.anchorPage]
      | some ends =>
        obtain ⟨pmin, pmax⟩ := ends
        rw [clampTo_some (hspan pmin pmax hs)]
        cases hx : x.mode <;> simp [State.liveEnd, hs, anchor, State.anchorPage]
    rw [← hfollowed]
    refine ⟨head_place_follower hc hn hm hh h, fun old ho => ?_⟩
    rw [← hfollowed]
    exact head_steer_follower hc hn hm hh g ho

end Sys2Proof.Machine
end

section
/-! PROOFS. Proofs/Advances.lean: the advance of a channel (R95, R96, R116 to R118), and the fit arithmetic (R115, R116). -/

namespace Sys2Proof.Machine

variable {s : State} {c : Chan} {h : Playhead} {ctx : ClipContext} {clip : Clip}

/-! ### Clamps of a wanted position -/

section
variable {pmin pmax : Nat} {x : Int}

theorem clampTo_within (h1 : (pmin : Int) ≤ x) (h2 : x ≤ pmax) : clampTo (some (pmin, pmax)) x = (x.toNat, false) := by
  simp only [clampTo]
  rw [if_neg (not_lt.mpr h2), if_neg (not_lt.mpr h1)]

theorem clampTo_above (h : (pmax : Int) < x) : clampTo (some (pmin, pmax)) x = (pmax, true) := by
  simp only [clampTo]
  rw [if_pos h]

theorem clampTo_below (hp : pmin ≤ pmax) (h : x < pmin) : clampTo (some (pmin, pmax)) x = (pmin, true) := by
  simp only [clampTo]
  rw [if_neg (by omega), if_pos h]

end

/-! ### The advance outside CLIP -/

theorem advance_live {pmin pmax : Nat} (hh : (s.chan c).head = some h) (hm : h.mode = .live)
    (hs : s.span h.angle = some (pmin, pmax)) :
    s.advance c = s.place c { h with position := pmax, speed := 720, clamp := false } := by
  simp only [State.advance, hh, hm, State.liveEnd, hs]

theorem advance_moves (hh : (s.chan c).head = some h) (hm : h.mode = .shuttle ∨ h.mode = .play) :
    s.advance c = s.moveHead c h := by
  rcases hm with hm | hm <;> simp only [State.advance, hh, hm]

section
variable {pmin pmax : Nat} (hs : s.span h.angle = some (pmin, pmax))
include hs

theorem moveHead_within (h1 : (pmin : Int) ≤ h.position + h.speed) (h2 : (h.position : Int) + h.speed ≤ pmax) :
    s.moveHead c h = s.place c { h with position := (h.position + h.speed : Int).toNat, clamp := false } := by
  simp only [State.moveHead, hs, clampTo_within h1 h2]
  rfl

theorem moveHead_above (h1 : (pmax : Int) < h.position + h.speed) :
    s.moveHead c h = if 720 ≤ h.speed ∧ (s.recorder h.angle).state = .recording then
        s.place c { h with mode := .live, speed := 720, position := pmax, clamp := true }
      else s.place c { h with position := pmax, clamp := true } := by
  simp only [State.moveHead, hs, clampTo_above h1, h1, if_true]

theorem moveHead_below (hp : pmin ≤ pmax) (h1 : (h.position : Int) + h.speed < pmin) :
    s.moveHead c h = if h.mode = .play then
        s.place c { h with mode := .paused, speed := 0, position := pmin, clamp := true }
      else s.place c { h with position := pmin, clamp := true } := by
  simp only [State.moveHead, hs, clampTo_below hp h1, if_neg (lt_asymm h1), if_true]

end

/-! ### Skipped cues -/

/-- The state after the skips of `n` cues (R126). -/
def State.skips (s : State) (c : Chan) (n : Nat) : State := n.repeat (fun t => t.skipCue c) s

theorem skips_succ (n : Nat) : s.skips c (n + 1) = (s.skipCue c).skips c n := by
  induction n with
  | zero => rfl
  | succ n ih =>
    have : s.skips c (n + 1 + 1) = (s.skips c (n + 1)).skipCue c := rfl
    rw [this, ih]
    rfl

/-- A queue without a valid cue is emptied, with a skip for each (R126). -/
theorem takeCues_none {l : List Cue} (hl : ∀ q ∈ l, s.validCue q = none) :
    s.takeCues c l = ((s.skips c l.length).modChan c fun ch => { ch with cues := [] }, false) := by
  induction l generalizing s with
  | nil => rfl
  | cons q rest ih =>
    have hq := hl q List.mem_cons_self
    rw [State.takeCues, hq, List.length_cons, skips_succ]
    exact ih fun x hx => hl x (List.mem_cons_of_mem _ hx)

/-- The first valid cue of a queue is taken, with a skip for each before it (R126, R127). -/
theorem takeCues_some {bad rest : List Cue} {q : Cue} {clip : Clip} {a : Angle} (hb : ∀ x ∈ bad, s.validCue x = none)
    (hq : s.validCue q = some (clip, a)) :
    s.takeCues c (bad ++ q :: rest) =
      (((s.skips c bad.length).modChan c fun ch => { ch with cues := rest }).enterClip c clip a q.pace true, true) := by
  induction bad generalizing s with
  | nil =>
    rw [List.nil_append, State.takeCues, hq]
    rfl
  | cons x bad ih =>
    have hx := hb x List.mem_cons_self
    rw [List.cons_append, State.takeCues, hx, List.length_cons, skips_succ]
    exact ih (fun y hy => hb y (List.mem_cons_of_mem _ hy)) hq

/-- Where no cue is taken, none of the queue was valid. -/
theorem takeCues_false {l : List Cue} (h : (s.takeCues c l).2 = false) : ∀ q ∈ l, s.validCue q = none := by
  induction l generalizing s with
  | nil => exact fun q hq => absurd hq (List.not_mem_nil)
  | cons q rest ih =>
    unfold State.takeCues at h
    cases hq : s.validCue q with
    | some x =>
      rw [hq] at h
      cases h
    | none =>
      rw [hq] at h
      intro x hx
      rcases List.mem_cons.mp hx with rfl | hx
      · exact hq
      · exact ih h x hx

theorem span_skips (n : Nat) (a : Angle) : (s.skips c n).span a = s.span a := by
  induction n with
  | zero => rfl
  | succ n ih => exact ih

theorem frameSpan_skips (n : Nat) (a : Angle) : (s.skips c n).frameSpan a = s.frameSpan a := by
  induction n with
  | zero => rfl
  | succ n ih => exact ih

/-- Where no cue is taken, spans and frame spans stand. -/
theorem takeNextCue_false (hf : (s.takeNextCue c).2 = false) (a : Angle) :
    (s.takeNextCue c).1.span a = s.span a ∧ (s.takeNextCue c).1.frameSpan a = s.frameSpan a := by
  have h := takeCues_none (s := s) (c := c) (takeCues_false hf)
  unfold State.takeNextCue
  rw [h]
  exact ⟨span_skips _ a, frameSpan_skips _ a⟩

/-! ### The advance in CLIP -/

theorem advance_clip_stopped (hh : (s.chan c).head = some h) (hm : h.mode = .clip ctx) (hr : ctx.running = false) :
    s.advance c = s := by
  simp only [State.advance, hh, hm, hr]
  rfl

theorem advance_clip_running (hh : (s.chan c).head = some h) (hm : h.mode = .clip ctx) (hr : ctx.running = true)
    (hf : s.findClip ctx.clipId ctx.serial = some clip) : s.advance c = s.clipAdvance c h ctx clip := by
  simp only [State.advance, hh, hm, hr, hf, if_true]

/-- The playhead of a channel in CLIP after an advance. -/
abbrev clipAt (h : Playhead) (ctx : ClipContext) (mode : SpeedMode) (running ended : Bool) (speed : Int) (position : Nat)
    (clamp : Bool) : Playhead :=
  { h with mode := .clip { ctx with mode := mode, running := running, endReached := ended }
           speed := speed, position := position, clamp := clamp }

/-- The start of the last frame of a clip on an angle (R117). -/
theorem lastFrame_cast (out : Nat) (a : Angle) :
    (((out + 1) * 720 : Nat) : Int) - (s.frameSpan a : Nat) = (((out + 1) * 720 - s.frameSpan a : Nat) : Int) := by
  have : s.frameSpan a ≤ 720 := Nat.div_le_self ..
  omega

/-- The end hold in a span (R117). -/
theorem endHold_eq {pmin pmax out : Nat} (hs : s.span h.angle = some (pmin, pmax)) (hp : pmin ≤ pmax) :
    s.endHold c h ctx out =
      s.place c { h with
        mode := .clip { ctx with running := false, endReached := true }, speed := 0
        position := max pmin (min pmax ((out + 1) * 720 - s.frameSpan h.angle))
        clamp := decide ((out + 1) * 720 - s.frameSpan h.angle < pmin ∨ pmax < (out + 1) * 720 - s.frameSpan h.angle) } := by
  unfold State.endHold
  dsimp only
  rw [lastFrame_cast, hs, clampTo_some hp]

section
variable {step : Int} {mode : SpeedMode} {out pmin pmax : Nat} (hstep : ctx.mode.step = (step, mode))
  (ho : clip.outMark = some out) (hs : s.span h.angle = some (pmin, pmax)) (hp : pmin ≤ pmax)
include hstep

theorem clipAdvance_zero (h0 : step = 0) :
    s.clipAdvance c h ctx clip = s.place c (clipAt h ctx mode ctx.running false 0 h.position false) := by
  subst h0
  simp only [State.clipAdvance, hstep]
  rfl

include hs hp ho

theorem clipAdvance_end (h0 : 0 < step) (hw : ((out + 1) * 720 : Nat) ≤ (h.position : Int) + step) :
    let pend := (out + 1) * 720 - s.frameSpan h.angle
    let cue := (s.modChan c fun ch => { ch with staged := false }).takeNextCue c
    s.clipAdvance c h ctx clip =
      if cue.2 then cue.1
      else cue.1.place c (clipAt h ctx mode false true 0 (max pmin (min pmax pend)) (decide (pend < pmin ∨ pmax < pend))) := by
  intro pend cue
  have hend : s.clipAdvance c h ctx clip = s.endBoundary c { h with
      mode := .clip { ctx with mode := mode, endReached := false }, speed := step }
      { ctx with mode := mode, endReached := false } out := by
    simp only [State.clipAdvance, hstep, ho, Option.getD_some, if_neg (ne_of_gt h0), if_pos h0, if_pos hw]
  rw [hend]
  unfold State.endBoundary
  dsimp only
  by_cases hc : cue.2 = true
  · rw [if_pos hc, if_pos hc]
  · rw [if_neg hc, if_neg hc]
    obtain ⟨hspan, hframe⟩ := takeNextCue_false (Bool.eq_false_iff.mpr hc) h.angle
    refine (endHold_eq (h := { h with
      mode := .clip { ctx with mode := mode, endReached := false }, speed := step }) (hspan.trans hs) hp).trans ?_
    dsimp only
    rw [hframe]
    rfl

omit hs hp in
theorem clipAdvance_forward (h0 : 0 < step) (hw : (h.position : Int) + step < ((out + 1) * 720 : Nat)) :
    s.clipAdvance c h ctx clip =
      s.place c (clipAt h ctx mode ctx.running false step (clampTo (s.span h.angle) (h.position + step)).1
        (clampTo (s.span h.angle) (h.position + step)).2) := by
  simp only [State.clipAdvance, hstep, ho, Option.getD_some, if_neg (ne_of_gt h0), if_pos h0, if_neg (not_le.mpr hw)]

omit ho

theorem clipAdvance_start (h0 : step < 0) (hw : (h.position : Int) + step < (clip.inMark * 720 : Nat)) :
    s.clipAdvance c h ctx clip =
      s.place c (clipAt h ctx mode false false 0 (max pmin (min pmax (clip.inMark * 720)))
        (decide (clip.inMark * 720 < pmin ∨ pmax < clip.inMark * 720))) := by
  simp only [State.clipAdvance, hstep, if_neg (ne_of_lt h0), if_neg (not_lt.mpr (le_of_lt h0)), if_pos hw, hs,
    clampTo_some hp]

theorem clipAdvance_backward_below (h0 : step < 0) (hw : (clip.inMark * 720 : Nat) ≤ (h.position : Int) + step)
    (hb : (h.position : Int) + step < pmin) :
    s.clipAdvance c h ctx clip = s.place c (clipAt h ctx mode false false 0 pmin true) := by
  simp only [State.clipAdvance, hstep, if_neg (ne_of_lt h0), if_neg (not_lt.mpr (le_of_lt h0)), if_neg (not_lt.mpr hw), hs,
    clampTo_below hp hb, hb, decide_true, Bool.and_self, if_true]

omit hp in
theorem clipAdvance_backward_within (h0 : step < 0) (hw : (clip.inMark * 720 : Nat) ≤ (h.position : Int) + step)
    (h1 : (pmin : Int) ≤ h.position + step) (h2 : (h.position : Int) + step ≤ pmax) :
    s.clipAdvance c h ctx clip =
      s.place c (clipAt h ctx mode ctx.running false step (h.position + step : Int).toNat false) := by
  simp only [State.clipAdvance, hstep, if_neg (ne_of_lt h0), if_neg (not_lt.mpr (le_of_lt h0)), if_neg (not_lt.mpr hw), hs,
    clampTo_within h1 h2, Bool.false_and]
  rfl

end

/-- Settles O31: the advance by its mode and by where the wanted position falls. -/
theorem advancesMoveByTheirStep : Obligations.AdvancesMoveByTheirStep := by
  refine ⟨fun s c h hh => ⟨fun hm => by simp only [State.advance, hh, hm], fun pmin pmax hs hp =>
    ⟨fun hm => advance_live hh hm hs, fun hm => ?_⟩⟩, fun s c h ctx clip out pmin pmax hh hm hf ho hs hp =>
    ⟨advance_clip_stopped hh hm, fun hr => ?_⟩⟩
  · intro wanted
    rw [advance_moves hh hm]
    refine ⟨moveHead_within hs, fun hw h1 h2 => ?_, fun hw hno => ?_, fun hw hplay => ?_, fun hw hsh => ?_⟩
    · rw [moveHead_above hs hw, if_pos ⟨h1, h2⟩]
    · rw [moveHead_above hs hw, if_neg fun e => hno.elim (not_lt.mpr e.1) fun hn => hn e.2]
    · rw [moveHead_below hs hp hw, if_pos hplay]
    · rw [moveHead_below hs hp hw, if_neg (by rw [hsh]; decide)]
  · rw [advance_clip_running hh hm hr hf]
    intro step mode wanted at'
    have hstep : ctx.mode.step = (step, mode) := by
      cases hx : ctx.mode with
      | fixed v => simp only [step, mode, hx, SpeedMode.step]
      | fit d q r e =>
        simp only [step, mode, hx, SpeedMode.step]
        split <;> rfl
    have hat : ∀ ended speed position clamp, at' true ended speed position clamp =
        clipAt h ctx mode ctx.running ended speed position clamp := fun _ _ _ _ => by rw [hr]
    refine ⟨fun h0 => by rw [hat, clipAdvance_zero hstep h0], fun h0 hw hq => ?_, clipAdvance_end hstep ho hs hp, fun h0 hw h1 h2 => ?_,
      fun h0 hw h1 => ?_, fun h0 hw => clipAdvance_start hstep hs hp h0 hw, clipAdvance_backward_below hstep hs hp,
      fun h0 hw h1 h2 => ?_⟩
    · have hnone : (s.modChan c fun ch => { ch with staged := false }).takeNextCue c =
          (s.modChan c fun ch => { ch with staged := false }, false) := by
        have hq' : ((s.modChan c fun ch => { ch with staged := false }).chan c).cues = [] := by simp [hq]
        unfold State.takeNextCue
        rw [hq', State.takeCues, modChan_modChan]
        exact congrArg (·, false) (modChan_congr (by simp [hq]))
      rw [clipAdvance_end hstep ho hs hp h0 hw, hnone]
      rfl
    · rw [hat, clipAdvance_forward hstep ho h0 hw, hs, clampTo_within h1 h2]
    · rw [hat, clipAdvance_forward hstep ho h0 hw, hs, clampTo_above h1]
    · rw [hat, clipAdvance_backward_within hstep hs h0 hw h1 h2]

/-! ### The fit arithmetic -/

/-- The sum of the steps of `n` advances of a FIT, and its error term after them (R116). -/
theorem after_fit {d q r : Nat} (hr : r < d) (n e : Nat) (he : e < d) :
    SpeedMode.after n (.fit d q r e) = (((n * q + (e + n * r) / d : Nat) : Int), .fit d q r ((e + n * r) % d)) := by
  induction n generalizing e with
  | zero => simp [SpeedMode.after, Nat.div_eq_of_lt he, Nat.mod_eq_of_lt he]
  | succ n ih =>
    have hsum : e + (n + 1) * r = e + r + n * r := by rw [Nat.succ_mul]; omega
    have hq : (n + 1) * q = n * q + q := Nat.succ_mul ..
    unfold SpeedMode.after
    rcases SpeedMode.step_fit d q r e with ⟨hc, hstep⟩ | ⟨hc, hstep⟩
    · have hcarry : e + r + n * r = e + r - d + n * r + d := by omega
      rw [hstep, ih _ (by omega), hsum, hcarry, Nat.add_div_right _ (by omega), Nat.add_mod_right, hq]
      refine Prod.ext ?_ rfl
      push_cast
      omega
    · rw [hstep, ih _ hc, hsum, hq]
      refine Prod.ext ?_ rfl
      push_cast
      omega

/-- Settles O33: the sum of the steps from the set-up, at the Dth advance and before. -/
theorem fitReachesTheBoundaryAtTheDthAdvance : Obligations.FitReachesTheBoundaryAtTheDthAdvance := by
  refine ⟨fun grains d hg hd hq => ?_, fun d q r e => ⟨fun h => ?_, fun h => ?_⟩⟩
  · have hterms : fitTerms grains d = (.fit d (grains / d) (grains % d) 0, false) := if_neg (Nat.not_lt.mpr hq)
    have hr : grains % d < d := Nat.mod_lt _ hd
    have hsum : d * (grains / d) + grains % d = grains := Nat.div_add_mod ..
    refine ⟨hterms, ?_, fun n hn => ?_⟩
    · rw [hterms]
      dsimp only
      rw [after_fit hr d 0 hd, Nat.zero_add, Nat.mul_div_cancel_left _ hd, Nat.mul_mod_right, hsum]
    · rw [hterms]
      dsimp only
      rw [after_fit hr n 0 hd, Nat.zero_add]
      have hmul : n * (grains / d) ≤ d * (grains / d) := Nat.mul_le_mul_right _ (le_of_lt hn)
      have hlt : n * (grains / d) + n * (grains % d) / d < grains := by
        rcases Nat.eq_zero_or_pos (grains % d) with h0 | h0
        · have hpos : 0 < grains / d := Nat.pos_of_ne_zero fun e => by rw [e] at hsum; omega
          have : n * (grains / d) < d * (grains / d) := Nat.mul_lt_mul_of_pos_right hn hpos
          rw [h0, Nat.mul_zero, Nat.zero_div]
          omega
        · have : n * (grains % d) / d < grains % d :=
            Nat.div_lt_of_lt_mul (Nat.mul_lt_mul_of_pos_right hn h0)
          omega
      exact Int.ofNat_lt.mpr hlt
  · rcases SpeedMode.step_fit d q r e with ⟨hc, -⟩ | ⟨-, hstep⟩
    · omega
    · exact hstep
  · rcases SpeedMode.step_fit d q r e with ⟨-, hstep⟩ | ⟨hc, -⟩
    · exact hstep
    · omega

end Sys2Proof.Machine
end

section
/-! PROOFS. Proofs/Playback.lean: entering CLIP (R114, R115, R127), LOAD CLIP (R114), and the cue queue (R122 to R127). -/

namespace Sys2Proof.Machine

variable {s : State} {stn : Station} {c : Chan}

/-! ### What keeps spans -/

/-- Two states with the same record contexts and record lists. -/
def SameLists (s t : State) : Prop := t.recorders = s.recorders ∧ t.pages.lists = s.pages.lists

theorem SameLists.trans {t u : State} (h : SameLists s t) (k : SameLists t u) : SameLists s u :=
  ⟨k.1.trans h.1, k.2.trans h.2⟩

theorem SameLists.span {t : State} (h : SameLists s t) (a : Angle) : t.span a = s.span a := by
  unfold State.span State.pageList State.recorder State.frameSpan State.recorder
  rw [h.1, h.2]

theorem settleFrom_lists (scans : List Scan) (s : State) : SameLists s (s.settleFrom scans) := by
  induction scans generalizing s with
  | nil => exact ⟨rfl, rfl⟩
  | cons sc rest ih =>
    unfold State.settleFrom
    split
    · refine SameLists.trans ⟨?_, ?_⟩ (ih _)
      · rw [scanCompleted_recorders]
      · rw [scanCompleted_pages]
    · exact ⟨rfl, rfl⟩

theorem raiseGeneration_lists : SameLists s s.raiseGeneration := by
  unfold State.raiseGeneration
  split <;> exact ⟨rfl, rfl⟩

theorem startDeletion_lists (clip : Clip) : SameLists s (s.startDeletion clip) :=
  SameLists.trans (t := (s.modClip clip.id clip.serial fun d => { d with state := .deleting }).raiseGeneration)
    (SameLists.trans ⟨rfl, rfl⟩ raiseGeneration_lists) (SameLists.trans ⟨rfl, rfl⟩ (settleFrom_lists _ _))

theorem dropUse_lists (id serial : Nat) : SameLists s (s.dropUse id serial) := by
  unfold State.dropUse
  split
  · exact ⟨rfl, rfl⟩
  · dsimp only
    split
    · split
      · exact SameLists.trans ⟨rfl, rfl⟩ (startDeletion_lists _)
      · exact SameLists.trans ⟨rfl, rfl⟩ raiseGeneration_lists
    · exact ⟨rfl, rfl⟩

theorem leaveClip_lists (c : Chan) : SameLists s (s.leaveClip c) := by
  unfold State.leaveClip
  split
  · split
    · exact SameLists.trans ⟨rfl, rfl⟩ (dropUse_lists _ _)
    · exact ⟨rfl, rfl⟩
  · exact ⟨rfl, rfl⟩

theorem addUse_lists (id serial : Nat) : SameLists s (s.addUse id serial) := ⟨rfl, rfl⟩

theorem noteLimited_lists (c : Chan) (limited : Bool) : SameLists s (s.noteLimited c limited) := by
  cases limited <;> exact ⟨rfl, rfl⟩

/-! ### Entering CLIP -/

/-- A channel that enters CLIP on an angle with a span (R113 to R115, R127). -/
theorem enterClip_eq {clip : Clip} {a : Angle} {pace : CuePace} {running limited : Bool} {mode : SpeedMode}
    {pmin pmax : Nat} (hs : s.span a = some (pmin, pmax)) (hp : pmin ≤ pmax) (hset : setUp clip pace = (mode, limited)) :
    s.enterClip c clip a pace running =
      ((((s.leaveClip c).addUse clip.id clip.serial).noteLimited c limited).modChan c fun ch =>
          { ch with staged := false }).place c
        { mode := .clip { clipId := clip.id, serial := clip.serial, running := running, endReached := false, mode := mode }
          angle := a, position := max pmin (min pmax (clip.inMark * 720))
          speed := if running then mode.baseSpeed else 0
          clamp := decide (clip.inMark * 720 < pmin ∨ pmax < clip.inMark * 720), anchor := none } := by
  have hspan : (((s.leaveClip c).addUse clip.id clip.serial).noteLimited c limited).span a = some (pmin, pmax) := by
    rw [← hs]
    exact (((leaveClip_lists c).trans (addUse_lists ..)).trans (noteLimited_lists c limited)).span a
  unfold State.enterClip
  dsimp only
  rw [hset]
  dsimp only
  rw [hspan, clampTo_some hp]

theorem setUp_fit {clip : Clip} {d : Nat} (h : clip.grains / d ≤ 2880) :
    setUp clip (.fit d) = (.fit d (clip.grains / d) (clip.grains % d) 0, false) := if_neg (Nat.not_lt.mpr h)

theorem setUp_limited {clip : Clip} {d : Nat} (h : 2880 < clip.grains / d) :
    setUp clip (.fit d) = (.fit d 2880 0 0, true) := if_pos h

/-! ### Valid cues -/

/-- A cue is valid on a clip: the clip is present and CLOSED or CLOSING, and the cue's angle is in its set and has a span
(R125). -/
abbrev State.CueFits (s : State) (q : Cue) (clip : Clip) : Prop :=
  s.findClip q.clipId q.serial = some clip ∧ (clip.state = .closed ∨ clip.state = .closing) ∧
    q.angle.getD clip.hero ∈ clip.angles ∧ s.span (q.angle.getD clip.hero) ≠ none

theorem validCue_some {q : Cue} {clip : Clip} (h : s.CueFits q clip) : s.validCue q = some (clip, q.angle.getD clip.hero) := by
  obtain ⟨hf, hstate, hangle, hspan⟩ := h
  simp only [State.validCue, hf]
  refine if_pos ?_
  rw [Bool.and_eq_true, Bool.and_eq_true, Bool.or_eq_true, decide_eq_true_eq, decide_eq_true_eq, List.contains_iff_mem,
    Option.isSome_iff_ne_none]
  exact ⟨⟨hstate, hangle⟩, hspan⟩

theorem validCue_none {q : Cue} (h : ∀ clip, ¬ s.CueFits q clip) : s.validCue q = none := by
  unfold State.validCue
  cases hf : s.findClip q.clipId q.serial with
  | none => rfl
  | some clip =>
    refine if_neg fun e => h clip ?_
    rw [Bool.and_eq_true, Bool.and_eq_true, Bool.or_eq_true, decide_eq_true_eq, decide_eq_true_eq, List.contains_iff_mem,
      Option.isSome_iff_ne_none] at e
    exact ⟨hf, e.1.1, e.1.2, e.2⟩

/-! ### Refusals of channel commands -/

theorem claimRefusal_notClaimed (h0 : stn ≠ 0) (hh : s.holder c ≠ some stn) : s.claimRefusal stn c = some .notClaimed := by
  simp only [State.claimRefusal, if_neg hh, if_pos h0]

theorem claimRefusal_claimed (hn : s.holder c ≠ none) (hh : s.holder c ≠ some 0) : s.claimRefusal 0 c = some .claimed := by
  simp only [State.claimRefusal, if_neg hh, ne_eq, not_true_eq_false, if_false, if_neg hn]

theorem onChannel_none {channel : Byte} {rule : Chan → State → State × Reply} (hc : chanOf? channel.toNat = none) :
    onChannel stn channel rule s = (s, .plain .badArgument) := by
  simp only [onChannel, hc]

theorem onChannel_refused {channel : Byte} {rule : Chan → State → State × Reply} {r : Result}
    (hc : chanOf? channel.toNat = some c) (hr : s.claimRefusal stn c = some r) :
    onChannel stn channel rule s = (s, .plain r) := by
  simp only [onChannel, hc, hr]

theorem badClipOrAngle_iff {id : BitVec 16} {angle : Byte} :
    badClipOrAngle id angle = true ↔ ¬ (id ≠ 0 ∧ id.toNat ≤ 512 ∧ angle.toNat ≤ 8) := by
  unfold badClipOrAngle
  rw [Bool.or_eq_true, Bool.or_eq_true, decide_eq_true_eq, decide_eq_true_eq, decide_eq_true_eq]
  by_cases h : id = 0
  · simp [h]
  · simp only [h, false_or, ne_eq, not_false_eq_true, true_and]
    omega

/-! ### The cue queue -/

section
variable {channel angle : Byte} {id serial : BitVec 16} {pace : Pace} {r : Result} {data : List Byte} {t : State}

theorem exec_cueAdd_refused (h : s.hears stn)
    (hb : chanOf? channel.toNat = none ∨ ¬ (id ≠ 0 ∧ id.toNat ≤ 512 ∧ angle.toNat ≤ 8)) :
    exec (.cueAdd stn channel id serial angle pace) s = .next ((s.counted stn).answered stn .cueAdd .badArgument []) := by
  refine step_answers h (.inl rfl) rfl ?_
  by_cases hbad : badClipOrAngle id angle = true
  · exact if_pos hbad
  · refine (if_neg hbad).trans (onChannel_none (hb.resolve_right fun e => hbad (badClipOrAngle_iff.mpr e)))

theorem exec_cueAdd (h : s.hears stn) (hfit : id ≠ 0 ∧ id.toNat ≤ 512 ∧ angle.toNat ≤ 8)
    (hb : onChannel stn channel (cueAddRule stn id serial angle pace) (s.counted stn) =
      (t, { result := some r, data := data })) :
    exec (.cueAdd stn channel id serial angle pace) s = .next (t.answered stn .cueAdd r data) :=
  step_answers h (.inl rfl) rfl ((if_neg fun e => badClipOrAngle_iff.mp e hfit).trans hb)

end

theorem cueAddRule_full {angle : Byte} {id serial : BitVec 16} {pace : Pace} (h : 12 ≤ (s.chan c).cues.length) :
    cueAddRule stn id serial angle pace c s = (s, .plain .queueFull) := if_pos h

theorem cueAddRule_room {angle : Byte} {id serial : BitVec 16} {pace : Pace} (h : (s.chan c).cues.length < 12) :
    cueAddRule stn id serial angle pace c s =
      (s.modChan c fun ch => { ch with cues := ch.cues ++ [{
          clipId := id.toNat, serial := serial.toNat, angle := angleOf? angle.toNat
          pace := cuePace (s.setting stn).playPreset pace }] },
        .okWith [BitVec.ofNat 8 ((s.chan c).cues.length + 1)]) := by
  refine (if_neg (Nat.not_le.mpr h)).trans (Prod.ext rfl (congrArg Reply.okWith ?_))
  simp [beBytes, List.range_succ]

theorem isRunningClip_iff (ch : Channel) :
    ch.isRunningClip = true ↔ ∃ h ctx, ch.head = some h ∧ h.mode = .clip ctx ∧ ctx.running = true := by
  unfold Channel.isRunningClip
  cases ch.head with
  | none => simp
  | some h => cases hm : h.mode <;> simp [hm]

/-- CUE NEXT on a channel that is not running in CLIP takes the next cue (R124, R126). -/
theorem cueNext_takes (h : ¬ (s.chan c).isRunningClip = true) :
    s.cueNext c = (s.modChan c fun ch => { ch with staged := false }).takeNextCue c := if_neg h

theorem exec_cueNext {channel : Byte} {g : State → State} {r : Result} (h : s.hears stn)
    (hc : chanOf? channel.toNat = some c) (hd : s.drives stn c) (hf : s.isFollower c = false)
    (hg : (s.atEvent.counted stn).cueNext c = (g (s.atEvent.counted stn), decide (r = .ok)))
    (hr : r = .ok ∨ r = .noClip) :
    exec (.cueNext stn channel) s = .next (s.inEvent fun u => (g (u.counted stn)).answered stn .cueNext r []) := by
  refine event_answers h (.inl rfl) rfl ((onChannel_drives (s := s.atEvent.counted stn) hc hd).trans ?_)
  have hf : ¬ (s.atEvent.counted stn).isFollower c = true := Bool.eq_false_iff.mp hf
  rw [if_neg hf, hg]
  rcases hr with rfl | rfl <;> rfl

theorem takeNextCue_none (h : ∀ q ∈ (s.chan c).cues, ∀ clip, ¬ s.CueFits q clip) :
    s.takeNextCue c = ((s.skips c (s.chan c).cues.length).modChan c fun ch => { ch with cues := [] }, false) :=
  takeCues_none fun q hq => validCue_none (h q hq)

theorem takeNextCue_some {bad rest : List Cue} {q : Cue} {clip : Clip} (hl : (s.chan c).cues = bad ++ q :: rest)
    (hb : ∀ b ∈ bad, ∀ x, ¬ s.CueFits b x) (hq : s.CueFits q clip) :
    s.takeNextCue c =
      (((s.skips c bad.length).modChan c fun ch => { ch with cues := rest }).enterClip c clip
        (q.angle.getD clip.hero) q.pace true, true) := by
  unfold State.takeNextCue
  rw [hl]
  exact takeCues_some (fun b hm => validCue_none (hb b hm)) (validCue_some hq)

/-- Settles O34: the taking of a cue, the entry into CLIP, and the three commands. -/
theorem cuesAreQueuedAndTaken : Obligations.CuesAreQueuedAndTaken := by
  refine ⟨fun s c => ?_, fun s c clip a pace running pmin pmax hs hp => ?_, fun s stn channel id serial angle pace h => ?_,
    fun s stn channel c h hc hd => ⟨?_, fun id serial angle pace h0 h512 h8 => ⟨fun hfull => ?_, fun hroom => ?_⟩⟩,
    fun s stn channel c h hc hd => ?_⟩
  · intro skipped valid
    exact ⟨takeNextCue_none, fun bad q rest clip => takeNextCue_some⟩
  · intro start grains entered t
    refine ⟨fun v hv => ?_, fun d hd hq => ?_, fun d hd hq => ?_⟩
    · rw [enterClip_eq (mode := .fixed v) (limited := false) hs hp (by rw [hv]; rfl)]
      rfl
    · have hset := setUp_fit (clip := clip) hq
      rw [← hd] at hset
      rw [enterClip_eq hs hp hset]
      rfl
    · have hset := setUp_limited (clip := clip) hq
      rw [← hd] at hset
      rw [enterClip_eq hs hp hset]
      rfl
  · intro refused fits
    refine ⟨exec_cueAdd_refused h, fun c hc hfit => ⟨fun h0 hh => ?_, fun h0 hn hh => ?_⟩⟩
    · exact exec_cueAdd h hfit (onChannel_refused hc (claimRefusal_notClaimed (s := s.counted stn) h0 hh))
    · subst h0
      exact exec_cueAdd h hfit (onChannel_refused hc (claimRefusal_claimed (s := s.counted 0) hn hh))
  · exact step_answers h (.inl rfl) rfl (onChannel_drives (s := s.counted stn) hc hd)
  · exact exec_cueAdd h ⟨h0, h512, h8⟩ ((onChannel_drives (s := s.counted stn) hc hd).trans
      (cueAddRule_full (s := s.counted stn) hfull))
  · intro q
    have hadd := exec_cueAdd (serial := serial) (pace := pace) h ⟨h0, h512, h8⟩
      ((onChannel_drives (s := s.counted stn) hc hd).trans (cueAddRule_room (s := s.counted stn) hroom))
    cases pace <;> exact hadd
  · intro answer running skipped valid
    have hrun := isRunningClip_iff (s.chan c)
    let u := (s.atEvent.counted stn).modChan c fun ch => { ch with staged := false }
    have hcues : (u.chan c).cues = (s.chan c).cues :=
      (congrArg Channel.cues (chan_modChan_same (s := s.atEvent.counted stn) c fun ch =>
        { ch with staged := false })).trans rfl
    have hnext : ¬ running → (s.atEvent.counted stn).cueNext c = u.takeNextCue c := fun hr =>
      cueNext_takes fun e => hr (hrun.mp e)
    refine ⟨fun hf => ?_, fun hf hr => ?_, fun hf hr => ⟨fun hno => ?_, fun bad q rest clip hl hb hq => ?_⟩⟩
    · exact event_answers (g := fun u => u) h (.inl rfl) rfl
        ((onChannel_drives (s := s.atEvent.counted stn) hc hd).trans (if_pos hf))
    · exact exec_cueNext (g := fun u => u.modChan c fun ch => { ch with staged := true }) h hc hd hf
        (if_pos (hrun.mpr hr)) (.inl rfl)
    · refine exec_cueNext (g := fun u => (((u.modChan c fun ch => { ch with staged := false }).skips c
        (s.chan c).cues.length).modChan c fun ch => { ch with cues := [] })) h hc hd hf ?_ (.inr rfl)
      rw [hnext hr, takeNextCue_none (s := u) (by rw [hcues]; exact hno), hcues]
      rfl
    · refine exec_cueNext (g := fun u => (((u.modChan c fun ch => { ch with staged := false }).skips c
        bad.length).modChan c fun ch => { ch with cues := rest }).enterClip c clip (q.angle.getD clip.hero) q.pace
        true) h hc hd hf ?_ (.inl rfl)
      rw [hnext hr, takeNextCue_some (s := u) (hcues.trans hl) hb hq]
      rfl

end Sys2Proof.Machine
end

section
/-! PROOFS. Proofs/LoadClip.lean: LOAD CLIP (R114), and PLAY in and outside CLIP (R99, R119). -/

namespace Sys2Proof.Machine

variable {s : State} {stn : Station} {c : Chan}

/-! ### The position of a placed playhead -/

/-- A playhead within its span, on no LIVE channel: a channel that follows itself keeps it there (R97, R109). -/
def State.StandsAt (s : State) (c : Chan) (a : Angle) (position : Nat) : Prop :=
  ∃ h, (s.chan c).head = some h ∧ h.angle = a ∧ h.position = position ∧ h.mode ≠ .live

theorem followMode_ne_live {m : Mode} (h : m ≠ .live) : followMode m ≠ .live := by
  cases m <;> simp_all [followMode]

theorem standsAt_followOne {a : Angle} {position pmin pmax : Nat} (f : Chan) (hs : s.span a = some (pmin, pmax))
    (h1 : pmin ≤ position) (h2 : position ≤ pmax) (h : s.StandsAt c a position) : (s.followOne c f).StandsAt c a position := by
  obtain ⟨x, hx, ha, hpos, hm⟩ := h
  by_cases hf : f = c
  · subst hf
    have hmoved : clampTo (s.span x.angle) (x.position : Int) = (position, false) := by
      rw [ha, hs, hpos, clampTo_within (by exact_mod_cast h1) (by exact_mod_cast h2)]
      rfl
    refine ⟨_, head_followOne hx hx, ha, ?_, followMode_ne_live hm⟩
    simp only [State.followHead, if_neg hm, hmoved]
  · exact ⟨x, by rw [chan_followOne_ne (Ne.symm hf)]; exact hx, ha, hpos, hm⟩

/-- The playhead of a channel stands where it is placed within its span, also where the channel follows itself. -/
theorem standsAt_place {h : Playhead} {pmin pmax : Nat} (hs : s.span h.angle = some (pmin, pmax))
    (h1 : pmin ≤ h.position) (h2 : h.position ≤ pmax) (hm : h.mode ≠ .live) :
    (s.place c h).StandsAt c h.angle h.position := by
  rw [place_eq]
  have hstart : (s.writeHead c h).StandsAt c h.angle h.position :=
    ⟨{ h with anchor := s.anchorPage h.angle h.position }, by rw [chan_writeHead, if_pos rfl], rfl, rfl, hm⟩
  have hfold : ∀ (fs : List Chan) (t : State), t.span h.angle = some (pmin, pmax) → t.StandsAt c h.angle h.position →
      (fs.foldl (fun t f => t.followOne c f) t).StandsAt c h.angle h.position := fun fs => by
    induction fs with
    | nil => exact fun t _ ht => ht
    | cons f rest ih =>
      exact fun t hspan ht => ih _ ((span_followOne ..).trans hspan) (standsAt_followOne f hspan h1 h2 ht)
  exact hfold _ _ ((span_writeHead ..).trans hs) hstart

/-! ### LOAD CLIP -/

section
variable {channel angle : Byte} {id serial : BitVec 16} {pace : Pace} {r : Result}

theorem exec_loadClip_bad (h : s.hears stn)
    (hb : chanOf? channel.toNat = none ∨ ¬ (id ≠ 0 ∧ id.toNat ≤ 512 ∧ angle.toNat ≤ 8)) :
    exec (.loadClip stn channel id serial angle pace) s =
      .next (s.inEvent fun u => (u.counted stn).answered stn .loadClip .badArgument []) := by
  refine event_answers (g := fun u => u) h (.inl rfl) rfl ?_
  by_cases hbad : badClipOrAngle id angle = true
  · exact if_pos hbad
  · exact (if_neg hbad).trans (onChannel_none (hb.resolve_right fun e => hbad (badClipOrAngle_iff.mpr e)))

theorem exec_loadClip_refused (h : s.hears stn) (hfit : id ≠ 0 ∧ id.toNat ≤ 512 ∧ angle.toNat ≤ 8)
    (hb : onChannel stn channel (loadClipRule stn id serial angle pace) (s.atEvent.counted stn) =
      (s.atEvent.counted stn, .plain r)) :
    exec (.loadClip stn channel id serial angle pace) s =
      .next (s.inEvent fun u => (u.counted stn).answered stn .loadClip r []) :=
  event_answers (g := fun u => u) h (.inl rfl) rfl ((if_neg fun e => badClipOrAngle_iff.mp e hfit).trans hb)

theorem exec_loadClip_taken {g : State → State} {data : State → List Byte} (h : s.hears stn)
    (hfit : id ≠ 0 ∧ id.toNat ≤ 512 ∧ angle.toNat ≤ 8) (hc : chanOf? channel.toNat = some c) (hd : s.drives stn c)
    (hb : loadClipRule stn id serial angle pace c (s.atEvent.counted stn) =
      (g (s.atEvent.counted stn), .okWith (data (s.atEvent.counted stn)))) :
    exec (.loadClip stn channel id serial angle pace) s =
      .next (s.inEvent fun u => (g (u.counted stn)).answered stn .loadClip .ok (data (u.counted stn))) := by
  refine event_startCommand h (.inl rfl) rfl fun u hu => ?_
  subst hu
  have hbody : (if badClipOrAngle id angle = true then (s.atEvent.counted stn, Reply.plain .badArgument)
      else onChannel stn channel (loadClipRule stn id serial angle pace) (s.atEvent.counted stn)) = _ :=
    (if_neg fun e => badClipOrAngle_iff.mp e hfit).trans ((onChannel_drives (s := s.atEvent.counted stn) hc hd).trans hb)
  rw [hbody]
  rfl

end

section
variable {angle : Byte} {id serial : BitVec 16} {pace : Pace} {clip : Clip} (hfol : s.isFollower c = false)
include hfol

theorem loadClipRule_noClip (hf : s.findClip id.toNat serial.toNat = none) :
    loadClipRule stn id serial angle pace c s = (s, .plain .noClip) := by
  simp only [loadClipRule, hfol, hf]
  rfl

variable (hf : s.findClip id.toNat serial.toNat = some clip)
include hf

theorem loadClipRule_state (hs : ¬ (clip.state = .closed ∨ clip.state = .closing)) :
    loadClipRule stn id serial angle pace c s = (s, .plain .wrongState) := by
  have : (clip.state != .closed && clip.state != .closing) = true := by
    rw [Bool.and_eq_true, bne_iff_ne, bne_iff_ne]
    exact not_or.mp hs
  simp only [loadClipRule, hfol, hf, this]
  rfl

variable (hs : clip.state = .closed ∨ clip.state = .closing)
include hs

/-- LOAD CLIP of a clip that may be loaded: its angle, its span, or the entry (R114). -/
theorem loadClipRule_clip :
    loadClipRule stn id serial angle pace c s =
      if !clip.angles.contains ((angleOf? angle.toNat).getD clip.hero) then (s, .plain .badArgument)
      else if (s.span ((angleOf? angle.toNat).getD clip.hero)).isNone then (s, .plain .noMaterial)
      else
        let p := cuePace (s.setting stn).playPreset pace
        let t := s.enterClip c clip ((angleOf? angle.toNat).getD clip.hero) p false
        let position := ((t.chan c).head.map (·.position)).getD 0
        (t, .okWith (angleByte ((angleOf? angle.toNat).getD clip.hero) :: (beBytes 4 (position / 720) ++
          beBytes 2 (position % 720) ++ s.fitBytes (setUp clip p).1 (setUp clip p).2))) := by
  have : (clip.state != .closed && clip.state != .closing) = false := by
    rcases hs with h | h <;> simp [h]
  simp only [loadClipRule, hfol, hf, this]
  rfl

/-- LOAD CLIP enters CLIP at the in mark, and answers the angle, the position and the fit terms (R114, R115). -/
theorem loadClipRule_taken {pmin pmax : Nat} {mode : SpeedMode} {limited : Bool}
    (ha : (angleOf? angle.toNat).getD clip.hero ∈ clip.angles)
    (hspan : s.span ((angleOf? angle.toNat).getD clip.hero) = some (pmin, pmax)) (hp : pmin ≤ pmax)
    (hset : setUp clip (cuePace (s.setting stn).playPreset pace) = (mode, limited)) :
    loadClipRule stn id serial angle pace c s =
      (((((s.leaveClip c).addUse clip.id clip.serial).noteLimited c limited).modChan c fun ch =>
          { ch with staged := false }).place c
        { mode := .clip { clipId := clip.id, serial := clip.serial, running := false, endReached := false, mode := mode }
          angle := (angleOf? angle.toNat).getD clip.hero, position := max pmin (min pmax (clip.inMark * 720)), speed := 0
          clamp := decide (clip.inMark * 720 < pmin ∨ pmax < clip.inMark * 720), anchor := none },
        .okWith (angleByte ((angleOf? angle.toNat).getD clip.hero) ::
          (beBytes 4 (max pmin (min pmax (clip.inMark * 720)) / 720) ++
            beBytes 2 (max pmin (min pmax (clip.inMark * 720)) % 720) ++ s.fitBytes mode limited))) := by
  have henter := enterClip_eq (c := c) (running := false) hspan hp hset
  have hspan' : ((((s.leaveClip c).addUse clip.id clip.serial).noteLimited c limited).modChan c fun ch =>
      { ch with staged := false }).span ((angleOf? angle.toNat).getD clip.hero) = some (pmin, pmax) := by
    rw [← hspan]
    exact (((leaveClip_lists c).trans (addUse_lists ..)).trans (noteLimited_lists c limited)).span _
  obtain ⟨x, hx, -, hpos, -⟩ := standsAt_place (c := c) (h := {
      mode := .clip { clipId := clip.id, serial := clip.serial, running := false, endReached := false, mode := mode }
      angle := (angleOf? angle.toNat).getD clip.hero, position := max pmin (min pmax (clip.inMark * 720)), speed := 0
      clamp := decide (clip.inMark * 720 < pmin ∨ pmax < clip.inMark * 720), anchor := none }) hspan'
    (by dsimp only; omega) (by dsimp only; omega) (by simp)
  rw [loadClipRule_clip hfol hf hs, if_neg (by simp [ha]), if_neg (by simp [hspan])]
  dsimp only
  rw [hset, henter]
  refine Prod.ext rfl ?_
  dsimp only at hx hpos ⊢
  rw [if_neg (by decide), hx, Option.map_some, Option.getD_some, hpos]

end

/-- Settles O32: the refusals of LOAD CLIP in their order, and the entry with each speed mode. -/
theorem loadClipEntersClip : Obligations.LoadClipEntersClip := by
  intro s stn channel angle id serial pace c h refused
  refine ⟨fun hbad => exec_loadClip_bad h ?_, fun hc h0 h512 h8 => ?_⟩
  · rcases hbad with hbad | hbad | hbad | hbad
    · exact .inl hbad
    · exact .inr fun e => e.1 hbad
    · exact .inr fun e => absurd e.2.1 (Nat.not_le.mpr hbad)
    · exact .inr fun e => absurd e.2.2 (Nat.not_le.mpr hbad)
  have hfit : id ≠ 0 ∧ id.toNat ≤ 512 ∧ angle.toNat ≤ 8 := ⟨h0, h512, h8⟩
  refine ⟨fun r hr => exec_loadClip_refused h hfit (onChannel_refused (s := s.atEvent.counted stn) hc hr), fun hd => ?_⟩
  have hrefused : ∀ r, loadClipRule stn id serial angle pace c (s.atEvent.counted stn) =
      (s.atEvent.counted stn, .plain r) → refused r := fun r hr =>
    exec_loadClip_refused h hfit ((onChannel_drives (s := s.atEvent.counted stn) hc hd).trans hr)
  refine ⟨fun hfol => hrefused _ (if_pos hfol), fun hfol hf => hrefused _ (loadClipRule_noClip hfol hf),
    fun clip hfol hf => ?_⟩
  intro a taken
  refine ⟨fun ht => hrefused _ (loadClipRule_state hfol hf ht), fun ht ha => hrefused _ ?_, fun ht ha hs => hrefused _ ?_,
    fun pmin pmax ht ha hs hp => ?_⟩
  · exact (loadClipRule_clip (s := s.atEvent.counted stn) hfol hf ht).trans (if_pos (by simpa using ha))
  · exact (loadClipRule_clip (s := s.atEvent.counted stn) hfol hf ht).trans ((if_neg (by simpa using ha)).trans (if_pos (Option.isNone_iff_eq_none.mpr hs)))
  · intro start position grains loaded free
    have hloaded : ∀ mode limited, setUp clip (cuePace (s.setting stn).playPreset pace) = (mode, limited) →
        loaded mode limited fun u => u.fitBytes mode limited := fun mode limited hset =>
      exec_loadClip_taken
        (g := fun u => ((((u.leaveClip c).addUse clip.id clip.serial).noteLimited c limited).modChan c fun ch =>
          { ch with staged := false }).place c
          { mode := .clip { clipId := clip.id, serial := clip.serial, running := false, endReached := false, mode := mode }
            angle := a, position := position, speed := 0, clamp := decide (start < pmin ∨ pmax < start), anchor := none })
        (data := fun u => angleByte a :: (beBytes 4 (position / 720) ++ beBytes 2 (position % 720) ++
          u.fitBytes mode limited)) h hfit hc hd
        (loadClipRule_taken (s := s.atEvent.counted stn) hfol hf ht ha hs hp hset)
    refine ⟨fun hpace => ?_, fun v hpace => ?_, fun v hpace hq => ?_, fun v hpace hq => ?_⟩
    · exact hloaded (.fixed (s.setting stn).playPreset) false (by rw [hpace]; rfl)
    · exact hloaded (.fixed (max (-2880) (min 2880 v.toInt))) false (by rw [hpace]; rfl)
    · have hset := setUp_fit (clip := clip) hq
      exact hloaded _ false (by rw [hpace]; exact hset)
    · have hset := setUp_limited (clip := clip) hq
      exact hloaded _ true (by rw [hpace]; exact hset)

/-! ### PLAY -/

theorem onLeader_idle {rule : Chan → State → State} (h : (s.chan (s.leaderOf c)).head = none) :
    onLeader rule c s = (s, .plain .wrongState) := by
  simp only [onLeader, h]

theorem onLeader_acts {rule : Chan → State → State} {x : Playhead} (h : (s.chan (s.leaderOf c)).head = some x) :
    onLeader rule c s = (rule (s.leaderOf c) s, .plain .ok) := by
  simp only [onLeader, h]

/-- A PLAY disarms the lever when it is engaged on the channel the PLAY acts on (R93). -/
theorem disarm_counted (l : Chan) :
    (s.counted stn).disarm stn l =
      if (s.link stn).engaged = true ∧ s.leverTarget stn = some l then
        (s.counted stn).modLink stn fun k => { k with armed := false }
      else s.counted stn := by
  unfold State.disarm
  rw [link_counted_engaged, leverTarget_counted]
  by_cases h : (s.link stn).engaged = true ∧ s.leverTarget stn = some l
  · rw [if_pos h, if_pos (by simp [h])]
  · rw [if_neg h, if_neg fun e => h (by simpa using e)]

theorem chan_disarm (l d : Chan) : (s.disarm stn l).chan d = s.chan d := by
  unfold State.disarm
  split <;> rfl

theorem findClip_disarm (l : Chan) (id serial : Nat) : (s.disarm stn l).findClip id serial = s.findClip id serial := by
  unfold State.disarm
  split <;> rfl

section
variable {channel : Byte} {pace : Pace} {l : Chan} {x : Playhead} {ctx : ClipContext}

/-- A PLAY that is heard acts on the channel's leader, with the lever disarmed (R88, R93, R99). -/
theorem exec_play (h : s.hears stn) (hc : chanOf? channel.toNat = some c) (hd : s.drives stn c) (hl : s.leaderOf c = l)
    (hh : (s.chan l).head = some x) :
    exec (.play stn channel pace) s =
      .next ((((s.counted stn).disarm stn l).play l (s.setting stn).playPreset (playPace pace)).answered stn .play .ok
        []) := by
  subst hl
  exact step_answers h (.inl rfl) rfl ((onChannel_drives (s := s.counted stn) hc hd).trans
    (onLeader_acts (s := s.counted stn) hh))

theorem play_outside {preset : Int} {p : Option CuePace} (hh : (s.chan l).head = some x) (hm : ∀ ctx, x.mode ≠ .clip ctx) :
    s.play l preset p = s.steer l fun h => { h with mode := .play, speed := playSpeed preset p } := by
  unfold State.play
  rw [hh]
  dsimp only
  split
  · next e => exact absurd e (hm _)
  · rfl

theorem play_clip {preset : Int} {p : Option CuePace} (hh : (s.chan l).head = some x) (hm : x.mode = .clip ctx) :
    s.play l preset p = s.playClip l ctx p := by
  simp only [State.play, hh, hm]

theorem playClip_kept :
    s.playClip l ctx none = if ctx.running then s else s.steer l fun h =>
      { h with mode := .clip { ctx with running := true, endReached := false }, speed := ctx.mode.baseSpeed } := rfl

theorem playClip_afresh {clip : Clip} {p : CuePace} {mode : SpeedMode} {limited : Bool}
    (hf : s.findClip ctx.clipId ctx.serial = some clip) (hset : setUp clip p = (mode, limited)) :
    s.playClip l ctx (some p) = (s.noteLimited l limited).steer l fun h =>
      { h with mode := .clip { ctx with running := true, endReached := false, mode := mode }, speed := mode.baseSpeed } := by
  simp only [State.playClip, hf, hset]

end

/-- Settles O25: PLAY outside CLIP, and in CLIP with and without a speed mode. -/
theorem playRunsTheChannelOrTheClip : Obligations.PlayRunsTheChannelOrTheClip := by
  refine ⟨fun s stn channel pace c l h hc hd hl => ⟨fun hh => ?_, fun x hh hm => ?_⟩,
    fun s stn channel c l x ctx clip h hc hd hl hh hm hf => ?_⟩
  · subst hl
    exact step_answers h (.inl rfl) rfl ((onChannel_drives (s := s.counted stn) hc hd).trans
      (onLeader_idle (s := s.counted stn) hh))
  · intro speed armed
    have hspeed : playSpeed (s.setting stn).playPreset (playPace pace) = speed := by cases pace <;> rfl
    rw [exec_play h hc hd hl hh, play_outside (s := (s.counted stn).disarm stn l)
      ((congrArg Channel.head (chan_disarm (s := s.counted stn) l l)).trans hh) hm, hspeed,
      disarm_counted]
  · intro grains base answer runs
    have hplay : ∀ (pace : Pace) (f : State → State),
        (∀ u : State, u.findClip ctx.clipId ctx.serial = some clip → u.playClip l ctx (playPace pace) = f u) →
        answer pace f := fun pace f hu => by
      have hclip := play_clip (preset := (s.setting stn).playPreset) (p := playPace pace)
        ((congrArg Channel.head (chan_disarm (s := s.counted stn) (stn := stn) l l)).trans hh) hm
      rw [hu _ ((findClip_disarm (s := s.counted stn) (stn := stn) l _ _).trans hf), disarm_counted] at hclip
      have hexec := exec_play (pace := pace) h hc hd hl hh
      rw [disarm_counted, hclip] at hexec
      exact hexec
    refine ⟨fun hr => hplay .none (fun u => u) fun u _ => if_pos hr,
      fun hr => hplay .none (runs ctx.mode) fun u _ => if_neg (Bool.eq_false_iff.mp hr),
      fun v => hplay (.speed v) (runs _) fun u hu => playClip_afresh hu rfl, fun v => ?_⟩
    intro d
    refine ⟨fun hq => hplay (.duration v) (runs _) fun u hu => playClip_afresh hu (setUp_fit hq),
      fun hq => hplay (.duration v) (fun u => runs (.fit d 2880 0 0) (u.noteLimited l true)) fun u hu =>
        playClip_afresh hu (setUp_limited hq)⟩

end Sys2Proof.Machine
end

section
/-! PROOFS. Proofs/Channels.lean: PAUSE, LIVE and BLACK (R100, R101, R106), LOAD and UNLOAD (R102, R105), and ANGLE (R103). -/

namespace Sys2Proof.Machine

variable {s : State} {stn : Station} {c l : Chan} {channel : Byte} {x : Playhead}

/-! ### PAUSE and LIVE -/

theorem exec_pause (h : s.hears stn) (hc : chanOf? channel.toNat = some c) (hd : s.drives stn c) (hl : s.leaderOf c = l)
    (hh : (s.chan l).head = some x) :
    exec (.pause stn channel) s = .next (((s.counted stn).pause l).answered stn .pause .ok []) := by
  subst hl
  exact step_answers h (.inl rfl) rfl ((onChannel_drives (s := s.counted stn) hc hd).trans
    (onLeader_acts (s := s.counted stn) hh))

theorem pause_moving (hh : (s.chan l).head = some x) (hm : x.mode = .play ∨ x.mode = .shuttle ∨ x.mode = .live) :
    s.pause l = s.steer l fun h => { h with mode := .paused, speed := 0 } := by
  rcases hm with hm | hm | hm <;> simp only [State.pause, hh, hm] <;> rfl

theorem pause_paused (hh : (s.chan l).head = some x) (hm : x.mode = .paused) : s.pause l = s := by
  simp only [State.pause, hh, hm]

theorem pause_clip {ctx : ClipContext} (hh : (s.chan l).head = some x) (hm : x.mode = .clip ctx) :
    s.pause l = if ctx.running then
      s.steer l fun h => { h with mode := .clip { ctx with running := false }, speed := 0 } else s := by
  simp only [State.pause, hh, hm]
  split
  · next hr => simp only [Playhead.stopRunning, hr, if_true]
  · rfl

theorem span_leaveClip (c : Chan) (a : Angle) : (s.leaveClip c).span a = s.span a := (leaveClip_lists c).span a

theorem goLive_eq {pmin pmax : Nat} (hh : (s.chan l).head = some x) (hs : s.span x.angle = some (pmin, pmax)) :
    s.goLive l = (s.leaveClip l).place l { x with mode := .live, position := pmax, speed := 720, clamp := false } := by
  have : (s.leaveClip l).span x.angle = some (pmin, pmax) := (span_leaveClip l x.angle).trans hs
  simp only [State.goLive, hh, State.liveEnd, this]

theorem exec_live {g : State → State} (h : s.hears stn) (hc : chanOf? channel.toNat = some c) (hd : s.drives stn c)
    (hl : s.leaderOf c = l) (hh : (s.chan l).head = some x)
    (hg : (s.atEvent.counted stn).goLive l = g (s.atEvent.counted stn)) :
    exec (.live stn channel) s = .next (s.inEvent fun u => (g (u.counted stn)).answered stn .live .ok []) := by
  subst hl
  refine event_answers h (.inl rfl) rfl ((onChannel_drives (s := s.atEvent.counted stn) hc hd).trans
    ((onLeader_acts (s := s.atEvent.counted stn) hh).trans ?_))
  rw [← hg]
  rfl

/-- Settles O26: PAUSE and LIVE by the state of the channel or its leader, and BLACK and UNBLACK. -/
theorem pauseLiveAndBlack : Obligations.PauseLiveAndBlack := by
  refine ⟨fun s stn channel c l h hc hd hl => ?_, fun s stn channel c l h hc hd hl => ⟨fun hh => ?_,
    fun x pmin pmax hh hs => exec_live h hc hd hl hh (g := fun u => (u.leaveClip l).place l
      { x with mode := .live, position := pmax, speed := 720, clamp := false })
      (goLive_eq (s := s.atEvent.counted stn) hh hs)⟩,
    fun s stn channel c h hc hd => ⟨?_, ?_⟩⟩
  · intro answer
    refine ⟨fun hh => ?_, fun x hh => ?_⟩
    · subst hl
      exact step_answers h (.inl rfl) rfl ((onChannel_drives (s := s.counted stn) hc hd).trans
        (onLeader_idle (s := s.counted stn) hh))
    · have hpause : ∀ f : State → State, (s.counted stn).pause l = f (s.counted stn) → answer .ok f := fun f hf =>
        (exec_pause h hc hd hl hh).trans (by rw [hf])
      refine ⟨fun hm => hpause (fun u => u.steer l fun h => { h with mode := .paused, speed := 0 })
        (pause_moving (s := s.counted stn) hh hm), fun hm => hpause (fun u => u) (pause_paused (s := s.counted stn) hh hm),
        fun ctx hm => ⟨fun hr => hpause (fun u => u.steer l fun h =>
          { h with mode := .clip { ctx with running := false }, speed := 0 })
          ((pause_clip (s := s.counted stn) hh hm).trans (if_pos hr)), fun hr => hpause (fun u => u)
          ((pause_clip (s := s.counted stn) hh hm).trans (if_neg (Bool.eq_false_iff.mp hr)))⟩⟩
  · subst hl
    exact event_answers (g := fun u => u) h (.inl rfl) rfl ((onChannel_drives (s := s.atEvent.counted stn) hc hd).trans
      (onLeader_idle (s := s.atEvent.counted stn) hh))
  · exact step_answers h (.inl rfl) rfl (onChannel_drives (s := s.counted stn) hc hd)
  · exact step_answers h (.inl rfl) rfl (onChannel_drives (s := s.counted stn) hc hd)

/-! ### LOAD and UNLOAD -/

theorem exec_load {angle : Byte} {houseFrame : BitVec 32} {g : State → State} {r : Result} (h : s.hears stn)
    (hc : chanOf? channel.toNat = some c) (hd : s.drives stn c)
    (hg : loadRule angle houseFrame c (s.atEvent.counted stn) = (g (s.atEvent.counted stn), .plain r)) :
    exec (.load stn channel angle houseFrame) s =
      .next (s.inEvent fun u => (g (u.counted stn)).answered stn .load r []) :=
  event_answers h (.inl rfl) rfl ((onChannel_drives (s := s.atEvent.counted stn) hc hd).trans hg)

theorem loadRule_none {angle : Byte} {houseFrame : BitVec 32} (ha : angleOf? angle.toNat = none) :
    loadRule angle houseFrame c s = (s, .plain .badArgument) := by
  simp only [loadRule, ha]

/-- LOAD on an angle in range (R102). -/
theorem loadRule_angle {angle : Byte} {houseFrame : BitVec 32} {a : Angle} (ha : angleOf? angle.toNat = some a) :
    loadRule angle houseFrame c s =
      if s.isFollower c then (s, .plain .wrongState)
      else if (s.span a).isNone then (s, .plain .noMaterial)
      else
        ((s.leaveClip c).place c
          { mode := .paused, angle := a, position := (clampTo (s.span a) (houseFrame.toNat * 720 : Nat)).1, speed := 0
            clamp := (clampTo (s.span a) (houseFrame.toNat * 720 : Nat)).2, anchor := none }, .plain .ok) := by
  simp only [loadRule, ha, span_leaveClip]

theorem foldl_fixed {α β : Type} {f : α → β → α} {a : α} (l : List β) (h : ∀ b ∈ l, f a b = a) : l.foldl f a = a := by
  induction l with
  | nil => rfl
  | cons b rest ih =>
    rw [List.foldl_cons, h b List.mem_cons_self]
    exact ih fun x hx => h x (List.mem_cons_of_mem _ hx)

/-- Where nothing has changed, no lever has lost its target (R94). -/
theorem settleLevers_self : s.settleLevers s = s := by
  refine foldl_fixed allStations fun k _ => ?_
  cases h : s.leverTarget k with
  | none => rfl
  | some c => exact if_pos rfl

theorem gang_dropUse (id serial : Nat) (c : Chan) : ((s.dropUse id serial).chan c).gang = (s.chan c).gang := by
  have h : ((s.dropUse id serial).chan c).rest = (s.chan c).rest :=
    frame_dropUse (m := [.pages, .clips]) (by decide) (by decide) id serial (Frame.refl _ s) .channels (by decide) c
  have hgang := congrArg Channel.gang h
  exact hgang

theorem gang_leaveClip (c d : Chan) : ((s.leaveClip c).chan d).gang = (s.chan d).gang := by
  unfold State.leaveClip
  split
  · split
    · rw [gang_dropUse, chan_modChan]
      split
      · next e => subst e; rfl
      · rfl
    · rfl
  · rfl

theorem isFollower_leaveClip (c d : Chan) : (s.leaveClip c).isFollower d = s.isFollower d := by
  simp only [State.isFollower, gang_leaveClip]

theorem enterIdle_idle (h : (s.chan c).head = none) : s.enterIdle c = s := by
  simp only [State.enterIdle, h]

theorem enterIdle_some (h : (s.chan c).head = some x) :
    s.enterIdle c =
      ((if s.isFollower c then (s.leaveClip c).unlinkFollower c else (s.leaveClip c).breakGang c).movePin x.anchor
        none).modChan c fun ch => { ch with head := none, frameValid := false } := by
  simp only [State.enterIdle, h, isFollower_leaveClip]

theorem exec_unload {g : State → State} (h : s.hears stn) (hc : chanOf? channel.toNat = some c) (hd : s.drives stn c)
    (hg : ((s.atEvent.counted stn).enterIdle c).settleLevers (s.atEvent.counted stn) = g (s.atEvent.counted stn)) :
    exec (.unload stn channel) s = .next (s.inEvent fun u => (g (u.counted stn)).answered stn .unload .ok []) := by
  refine event_answers h (.inl rfl) rfl ((onChannel_drives (s := s.atEvent.counted stn) hc hd).trans ?_)
  rw [hg]
  rfl

/-- Settles O27: LOAD by its refusals and its clamp, and UNLOAD of an IDLE channel and of another. -/
theorem loadAndUnload : Obligations.LoadAndUnload := by
  refine ⟨fun s stn channel angle hf c h hc hd => ?_, fun s stn channel c h hc hd => ⟨fun hh => ?_, fun x hh => ?_⟩⟩
  · intro refused
    refine ⟨fun ha => exec_load (g := fun u => u) h hc hd (loadRule_none ha), fun a ha => ?_⟩
    refine ⟨fun hfol => exec_load (g := fun u => u) h hc hd ((loadRule_angle ha).trans (if_pos hfol)),
      fun hfol hs => exec_load (g := fun u => u) h hc hd ((loadRule_angle ha).trans
        ((if_neg (Bool.eq_false_iff.mp hfol)).trans (if_pos (Option.isNone_iff_eq_none.mpr hs)))),
      fun pmin pmax hfol hs hp => exec_load (g := fun u => (u.leaveClip c).place c
        { mode := .paused, angle := a, position := max pmin (min pmax (hf.toNat * 720)), speed := 0
          clamp := decide (hf.toNat * 720 < pmin ∨ pmax < hf.toNat * 720), anchor := none }) h hc hd ?_⟩
    have hs' : (s.atEvent.counted stn).span a = some (pmin, pmax) := hs
    have hfol' : ¬ (s.atEvent.counted stn).isFollower c = true := Bool.eq_false_iff.mp hfol
    rw [loadRule_angle ha, if_neg hfol', hs', if_neg (by simp), clampTo_some hp]
  · refine exec_unload (g := fun u => u) h hc hd ?_
    rw [enterIdle_idle (s := s.atEvent.counted stn) hh, settleLevers_self]
  · refine exec_unload (g := fun u => ((((if s.isFollower c then (u.leaveClip c).unlinkFollower c
      else (u.leaveClip c).breakGang c).movePin x.anchor none).modChan c fun ch =>
        { ch with head := none, frameValid := false }).settleLevers u)) h hc hd ?_
    rw [enterIdle_some (s := s.atEvent.counted stn) hh]
    rfl

end Sys2Proof.Machine
end

section
/-! PROOFS. Proofs/Gangs.lean: ANGLE (R103), GANG and UNGANG (R108, R110). -/

namespace Sys2Proof.Machine

variable {s : State} {stn : Station} {c l : Chan} {channel angle : Byte} {x : Playhead} {a : Angle}

/-! ### ANGLE -/

theorem exec_angle {g : State → State} {r : Result} (h : s.hears stn) (hc : chanOf? channel.toNat = some c)
    (hd : s.drives stn c) (hg : angleRule angle c (s.counted stn) = (g (s.counted stn), .plain r)) :
    exec (.angle stn channel angle) s = .next ((g (s.counted stn)).answered stn .angle r []) :=
  step_answers h (.inl rfl) rfl ((onChannel_drives (s := s.counted stn) hc hd).trans hg)

/-- An angle lies outside the angle set of the clip a channel plays (R103). -/
abbrev State.AngleOutside (s : State) (x : Playhead) (a : Angle) : Prop :=
  ∃ ctx, x.mode = .clip ctx ∧ ∀ clip, s.findClip ctx.clipId ctx.serial = some clip → a ∉ clip.angles

theorem clipHasAngle_eq_false_iff {ctx : ClipContext} :
    s.clipHasAngle ctx a = false ↔ ∀ clip, s.findClip ctx.clipId ctx.serial = some clip → a ∉ clip.angles := by
  unfold State.clipHasAngle
  cases s.findClip ctx.clipId ctx.serial <;> simp

section
variable (ha : angleOf? angle.toNat = some a)
include ha

theorem angleRule_idle (hh : (s.chan c).head = none) : angleRule angle c s = (s, .plain .wrongState) := by
  simp only [angleRule, ha, hh]

variable (hh : (s.chan c).head = some x)
include hh

theorem angleRule_noMaterial (hs : s.span a = none) : angleRule angle c s = (s, .plain .noMaterial) := by
  simp only [angleRule, ha, hh, hs]
  rfl

variable (hs : s.span a ≠ none)
include hs

theorem angleRule_outside (ho : s.AngleOutside x a) : angleRule angle c s = (s, .plain .badArgument) := by
  obtain ⟨ctx, hm, hclip⟩ := ho
  have hspan : (s.span a).isNone = false := Option.isNone_eq_false_iff.mpr (Option.isSome_iff_ne_none.mpr hs)
  simp only [angleRule, ha, hh, hspan, hm, clipHasAngle_eq_false_iff.mpr hclip]
  rfl

theorem angleRule_inside (ho : ¬ s.AngleOutside x a) :
    angleRule angle c s = if a = x.angle then (s, .plain .ok) else (s.changeAngle c a x, .plain .ok) := by
  have hspan : (s.span a).isNone = false := Option.isNone_eq_false_iff.mpr (Option.isSome_iff_ne_none.mpr hs)
  simp only [angleRule, ha, hh, hspan]
  cases hm : x.mode with
  | clip ctx =>
    have hhas : s.clipHasAngle ctx a = true := Bool.of_not_eq_false fun e => ho ⟨ctx, hm, clipHasAngle_eq_false_iff.mp e⟩
    simp only [hhas]
    rfl
  | _ => rfl

end

/-- The state after an angle change to a position: end reached falls where the position changes (R120). -/
def angleMode (x : Playhead) (position : Nat) : Mode :=
  match x.mode with
  | .clip ctx => .clip { ctx with endReached := ctx.endReached && decide (position = x.position) }
  | m => m

/-- A change of angle of a channel that is no gang follower (R103). -/
theorem changeAngle_alone {pmin pmax : Nat} (hf : s.isFollower c = false) (hs : s.span a = some (pmin, pmax))
    (hp : pmin ≤ pmax) :
    let position := if x.mode = .live then pmax else max pmin (min pmax x.position)
    s.changeAngle c a x = s.place c { x with
      angle := a, position := position
      clamp := if x.mode = .live then false else decide (x.position < pmin ∨ pmax < x.position)
      mode := angleMode x position } := by
  intro position
  by_cases hm : x.mode = .live
  · simp only [State.changeAngle, hf, Bool.false_eq_true, if_false, hm, if_true, State.liveEnd, hs, position,
      angleMode]
  · simp only [State.changeAngle, hf, Bool.false_eq_true, if_false, hm, hs, clampTo_some hp, position,
      angleMode] <;> rfl

/-- A change of angle of a gang follower (R103). -/
theorem changeAngle_follower {pmin pmax : Nat} {y : Playhead} (hg : (s.chan c).gang = .follower l)
    (hl : (s.chan l).head = some y) (hm : ∀ ctx, x.mode ≠ .clip ctx) (hs : s.span a = some (pmin, pmax)) (hp : pmin ≤ pmax) :
    s.changeAngle c a x = s.writeHead c { x with
      angle := a
      position := if y.mode = .live then pmax else max pmin (min pmax y.position)
      clamp := if y.mode = .live then false else decide (y.position < pmin ∨ pmax < y.position) } := by
  have hfol : s.isFollower c = true := by simp only [State.isFollower, hg]
  have hlead : s.leaderOf c = l := by simp only [State.leaderOf, hg]
  have halone : s.followersOf c = [] := by simp only [State.followersOf, hg]
  have hmode : angleMode x (if y.mode = .live then (s.liveEnd a x.position, false)
      else clampTo (s.span a) (y.position : Int)).1 = x.mode := by
    unfold angleMode
    split
    · next e => exact absurd e (hm _)
    · rfl
  have hchange : s.changeAngle c a x = s.place c { x with
      angle := a
      position := (if y.mode = .live then (s.liveEnd a x.position, false) else clampTo (s.span a) (y.position : Int)).1
      clamp := (if y.mode = .live then (s.liveEnd a x.position, false) else clampTo (s.span a) (y.position : Int)).2
      mode := angleMode x (if y.mode = .live then (s.liveEnd a x.position, false)
        else clampTo (s.span a) (y.position : Int)).1 } := by
    simp only [State.changeAngle, hfol, hlead, hl, if_true, Option.map_some, Option.getD_some, Option.some.injEq,
      angleMode]
  rw [hchange, hmode, place_alone halone]
  by_cases hy : y.mode = .live
  · simp only [hy, if_true, State.liveEnd, hs]
  · simp only [hy, if_false, hs, clampTo_some hp]

/-- Settles O28: ANGLE by its refusals, alone and as a gang follower. -/
theorem angleKeepsTheMoment : Obligations.AngleKeepsTheMoment := by
  refine ⟨fun s stn channel angle c h hc hd => ?_,
    fun s stn channel angle c l a x y pmin pmax h hc hd hg ha hh hl hne hm hs hp => ?_⟩
  · intro answer
    refine ⟨fun ha => exec_angle (g := fun u => u) h hc hd (by simp only [angleRule, ha]), fun a ha =>
      ⟨fun hh => exec_angle (g := fun u => u) h hc hd (angleRule_idle (s := s.counted stn) ha hh), fun x hh => ?_⟩⟩
    intro outside
    refine ⟨fun hs => exec_angle (g := fun u => u) h hc hd (angleRule_noMaterial (s := s.counted stn) ha hh hs),
      fun hs ho => exec_angle (g := fun u => u) h hc hd (angleRule_outside (s := s.counted stn) ha hh hs ho),
      fun hs ho he => exec_angle (g := fun u => u) h hc hd
        ((angleRule_inside (s := s.counted stn) ha hh hs ho).trans (if_pos he)), fun pmin pmax hs hp ho hne hf => ?_⟩
    intro position clamp mode
    have hmode : angleMode x position = mode := by
      unfold angleMode
      cases hm : x.mode <;> simp only [mode, hm]
    have hinside := angleRule_inside (s := s.counted stn) ha hh (hs.trans_ne (Option.some_ne_none _)) ho
    rw [if_neg hne, changeAngle_alone (s := s.counted stn) hf hs hp] at hinside
    exact exec_angle (g := fun u => u.place c { x with angle := a, position := position, clamp := clamp, mode := mode })
      h hc hd (hmode ▸ hinside)
  · have ho : ¬ s.AngleOutside x a := fun ⟨ctx, e, _⟩ => hm ctx e
    have hinside := angleRule_inside (s := s.counted stn) ha hh (hs.trans_ne (Option.some_ne_none _)) ho
    rw [if_neg hne, changeAngle_follower (s := s.counted stn) hg hl hm hs hp] at hinside
    exact exec_angle (g := fun u => u.writeHead c { x with
      angle := a
      position := if y.mode = .live then pmax else max pmin (min pmax y.position)
      clamp := if y.mode = .live then false else decide (y.position < pmin ∨ pmax < y.position) }) h hc hd hinside

/-! ### GANG -/

theorem mapM_eq_some {α β : Type} {f : α → Option β} {l : List α} {named : List β} (h : l.map f = named.map some) :
    l.mapM f = some named := by
  induction l generalizing named with
  | nil =>
    cases named with
    | nil => rfl
    | cons b rest => cases h
  | cons x rest ih =>
    cases named with
    | nil => cases h
    | cons b named =>
      obtain ⟨hx, hrest⟩ := List.cons.inj h
      simp [List.mapM_cons, hx, ih hrest]

theorem mapM_eq_none {α β : Type} {f : α → Option β} {l : List α} (h : ∃ x ∈ l, f x = none) : l.mapM f = none := by
  induction l with
  | nil => obtain ⟨x, hx, -⟩ := h; cases hx
  | cons y rest ih =>
    rw [List.mapM_cons]
    obtain ⟨x, hx, hnone⟩ := h
    rcases List.mem_cons.mp hx with rfl | hx
    · simp [hnone]
    · cases f y <;> simp [ih ⟨x, hx, hnone⟩]

theorem gangMembers_none {leader : Byte} {followers : List Byte}
    (h : chanOf? leader.toNat = none ∨ ∃ f ∈ followers, chanOf? f.toNat = none) : gangMembers leader followers = none := by
  unfold gangMembers
  rcases h with h | h
  · rw [h]
  · rw [mapM_eq_none (f := fun f : Byte => chanOf? f.toNat) h]
    cases chanOf? leader.toNat <;> rfl

theorem gangMembers_named {leader : Byte} {followers : List Byte} {named : List Chan} (hl : chanOf? leader.toNat = some l)
    (hn : followers.map (fun f => chanOf? f.toNat) = named.map some) (h1 : 1 ≤ followers.length) :
    gangMembers leader followers =
      if (l :: named).Nodup then some (l, allChans.filter fun c => named.contains c) else none := by
  have hne : named ≠ [] := fun e => by
    have := congrArg List.length hn
    rw [e] at this
    simp only [List.length_map, List.map_nil, List.length_nil] at this
    omega
  unfold gangMembers
  rw [hl, mapM_eq_some hn]
  dsimp only
  by_cases hnd : (l :: named).Nodup
  · rw [if_pos ⟨hne, hnd⟩, if_pos hnd]
  · rw [if_neg fun e => hnd e.2, if_neg hnd]

theorem findSome?_refusal {members : List Chan} {r : Result} (hex : ∃ c ∈ members, s.claimRefusal stn c = some r)
    (hall : ∀ c, s.claimRefusal stn c = none ∨ s.claimRefusal stn c = some r) :
    members.findSome? (s.claimRefusal stn) = some r := by
  cases h : members.findSome? (s.claimRefusal stn) with
  | none =>
    obtain ⟨c, hc, hr⟩ := hex
    exact absurd (List.findSome?_eq_none_iff.mp h c hc) (by simp [hr])
  | some x =>
    obtain ⟨c, -, hx⟩ := List.exists_of_findSome?_eq_some h
    rcases hall c with hn | hr
    · rw [hn] at hx; cases hx
    · rw [hr] at hx; exact hx.symm

theorem claimRefusal_zero (c : Chan) : s.claimRefusal 0 c = none ∨ s.claimRefusal 0 c = some .claimed := by
  unfold State.claimRefusal
  split
  · exact .inl rfl
  · simp only [ne_eq, not_true_eq_false, if_false]
    split
    · exact .inl rfl
    · exact .inr rfl

theorem claimRefusal_station (h0 : stn ≠ 0) (c : Chan) :
    s.claimRefusal stn c = none ∨ s.claimRefusal stn c = some .notClaimed := by
  unfold State.claimRefusal
  rw [if_pos h0]
  split
  · exact .inl rfl
  · exact .inr rfl

/-- The claim checks of a GANG (R108), by who holds its members. -/
theorem gangRefusal_cases (members : List Chan) :
    (stn ≠ 0 → (∃ c ∈ members, s.holder c ≠ some stn) → s.gangRefusal stn members = some .notClaimed) ∧
    (stn = 0 → (∃ c ∈ members, s.holder c ≠ none ∧ s.holder c ≠ some 0) → s.gangRefusal stn members = some .claimed) ∧
    (stn = 0 → (∀ c ∈ members, s.holder c = none ∨ s.holder c = some 0) → (∃ c ∈ members, s.holder c = none) →
      (∃ c ∈ members, s.holder c = some 0) → s.gangRefusal stn members = some .notClaimed) ∧
    ((∀ c ∈ members, s.holder c = some stn) ∨ (stn = 0 ∧ ∀ c ∈ members, s.holder c = none) →
      s.gangRefusal stn members = none) := by
  unfold State.gangRefusal
  refine ⟨fun h0 ⟨c, hc, hh⟩ => ?_, fun h0 ⟨c, hc, hn, hh⟩ => ?_, fun h0 hall hnone hheld => ?_, fun hall => ?_⟩
  · rw [findSome?_refusal ⟨c, hc, claimRefusal_notClaimed h0 hh⟩ (claimRefusal_station h0)]
  · subst h0
    rw [findSome?_refusal ⟨c, hc, claimRefusal_claimed hn hh⟩ claimRefusal_zero]
  · subst h0
    have hpass : members.findSome? (s.claimRefusal 0) = none := List.findSome?_eq_none_iff.mpr fun c hc => by
      rcases hall c hc with h | h <;> simp [State.claimRefusal, h]
    rw [hpass]
    dsimp only
    rw [if_neg]
    obtain ⟨c, hc, hcn⟩ := hnone
    obtain ⟨d, hd, hdh⟩ := hheld
    rw [Bool.or_eq_true, List.all_eq_true, List.all_eq_true]
    rintro (e | e)
    · have := e c hc
      simp [hcn] at this
    · have := e d hd
      simp [hdh] at this
  · have hpass : members.findSome? (s.claimRefusal stn) = none := List.findSome?_eq_none_iff.mpr fun c hc => by
      rcases hall with h | ⟨rfl, h⟩ <;> simp [State.claimRefusal, h c hc]
    rw [hpass]
    dsimp only
    rw [if_pos]
    rw [Bool.or_eq_true, List.all_eq_true, List.all_eq_true]
    rcases hall with h | ⟨-, h⟩
    · exact .inl fun c hc => by simp [h c hc]
    · exact .inr fun c hc => by simp [h c hc]

theorem exec_gang {leader : Byte} {followers : List Byte} {g : State → State} {r : Result} (h : s.hears stn)
    (h1 : 1 ≤ followers.length) (h3 : followers.length ≤ 3)
    (hg : gangRule stn leader followers (s.atEvent.counted stn) = (g (s.atEvent.counted stn), .plain r)) :
    exec (.gang stn leader followers) s = .next (s.inEvent fun u => (g (u.counted stn)).answered stn .gang r []) :=
  event_answers h (.inl rfl) (decide_eq_true ⟨h1, h3⟩) hg

/-- Some member of a gang is IDLE or stands in a gang (R108). -/
theorem anyInGang_iff (members : List Chan) :
    (members.any fun c => (s.chan c).head.isNone || (s.chan c).gang != .none) = true ↔
      ∃ c ∈ members, (s.chan c).head = none ∨ (s.chan c).gang ≠ .none := by
  simp

section
variable {leader : Byte} {followers : List Byte} {fs : List Chan} (hm : gangMembers leader followers = some (l, fs))
include hm

theorem gangRule_refused {r : Result} (hr : s.gangRefusal stn (l :: fs) = some r) :
    gangRule stn leader followers s = (s, .plain r) := by
  simp only [gangRule, hm, hr]

theorem gangRule_passes (hr : s.gangRefusal stn (l :: fs) = none) :
    gangRule stn leader followers s =
      if (l :: fs).any fun c => (s.chan c).head.isNone || (s.chan c).gang != .none then (s, .plain .wrongState)
      else ((s.joinGang l fs).settleLevers s, .plain .ok) := by
  simp only [gangRule, hm, hr]

end

/-! ### UNGANG -/

/-- A channel out of its gang: PAUSED with speed 0 at its position (R110). -/
def Channel.out (ch : Channel) : Channel :=
  { ch with gang := .none, head := ch.head.map fun h => { h with mode := .paused, speed := 0 } }

/-- A follower leaves its gang (R110). -/
theorem leaveGang_follower {fs : List Chan} (hc : (s.chan c).gang = .follower l) (hl : (s.chan l).gang = .leader fs) :
    s.leaveGang c =
      (s.modChan l fun ch =>
        { ch with gang := if fs.filter (· != c) = [] then .none else .leader (fs.filter (· != c)) }).modChan c
          Channel.out := by
  have hfol : s.isFollower c = true := by simp only [State.isFollower, hc]
  simp only [State.leaveGang, hfol, if_true, State.unlinkFollower, hc, State.modHead, modChan_modChan]
  have hleader : (s.modChan l fun ch =>
        match ch.gang with
        | .leader fs => { ch with gang := if (fs.filter (· != c)).isEmpty then .none else .leader (fs.filter (· != c)) }
        | _ => ch) =
      s.modChan l fun ch => { ch with gang := if fs.filter (· != c) = [] then .none else .leader (fs.filter (· != c)) } :=
    modChan_congr (by simp only [hl, List.isEmpty_iff])
  exact congrArg (fun t : State => t.modChan c Channel.out) hleader

/-- A follower that leaves changes itself and its leader's gang alone (R110). -/
theorem leaveGang_chan (hc : (s.chan c).gang = .follower l) (hlc : l ≠ c) :
    (s.leaveGang c).chan c = (s.chan c).out ∧
      (∃ g, (s.leaveGang c).chan l = { s.chan l with gang := g }) ∧
      ∀ d, d ≠ c → d ≠ l → (s.leaveGang c).chan d = s.chan d := by
  have hfol : s.isFollower c = true := by simp only [State.isFollower, hc]
  simp only [State.leaveGang, hfol, if_true, State.unlinkFollower, hc, State.modHead, modChan_modChan]
  refine ⟨?_, ?_, fun d hd hl => ?_⟩
  · rw [chan_modChan_same, chan_modChan, if_neg (Ne.symm hlc)]
    rfl
  · rw [chan_modChan, if_neg hlc, chan_modChan_same]
    split
    · exact ⟨_, rfl⟩
    · exact ⟨(s.chan l).gang, rfl⟩
  · rw [chan_modChan, if_neg hd, chan_modChan, if_neg hl]

/-- The followers of a leader leave one after another (R110). -/
theorem leaveGang_followers {fs : List Chan} (t : State) (hn : fs.Nodup) (hl : l ∉ fs)
    (hg : ∀ f ∈ fs, (t.chan f).gang = .follower l) :
    let u := fs.foldl (fun t f => t.leaveGang f) t
    (∀ f ∈ fs, u.chan f = (t.chan f).out) ∧ (∃ g, u.chan l = { t.chan l with gang := g }) ∧
      ∀ d, d ∉ fs → d ≠ l → u.chan d = t.chan d := by
  induction fs generalizing t with
  | nil => exact ⟨fun f hf => absurd hf List.not_mem_nil, ⟨(t.chan l).gang, rfl⟩, fun _ _ _ => rfl⟩
  | cons f rest ih =>
    obtain ⟨hf, hrest⟩ := List.nodup_cons.mp hn
    obtain ⟨hlf, hlrest⟩ := not_or.mp (mt List.mem_cons.mpr hl)
    obtain ⟨hself, ⟨g, hlead⟩, hother⟩ := leaveGang_chan (hg f List.mem_cons_self) hlf
    have hne : ∀ d ∈ rest, d ≠ f ∧ d ≠ l := fun d hd => ⟨fun e => hf (e ▸ hd), fun e => hlrest (e ▸ hd)⟩
    obtain ⟨h1, ⟨g', h2⟩, h3⟩ := ih (t.leaveGang f) hrest hlrest fun d hd => by
      rw [hother d (hne d hd).1 (hne d hd).2]
      exact hg d (List.mem_cons_of_mem _ hd)
    refine ⟨fun d hd => ?_, ⟨g', ?_⟩, fun d hd hdl => ?_⟩
    · rcases List.mem_cons.mp hd with rfl | hd
      · exact (h3 d hf (Ne.symm hlf)).trans hself
      · rw [List.foldl_cons, h1 d hd, hother d (hne d hd).1 (hne d hd).2]
    · rw [List.foldl_cons, h2, hlead]
    · obtain ⟨hdf, hdrest⟩ := not_or.mp (mt List.mem_cons.mpr hd)
      exact (h3 d hdrest hdl).trans (hother d hdf hdl)

theorem breakGang_none (h : (s.chan c).gang = .none) : s.breakGang c = s := by
  simp only [State.breakGang, h]

theorem breakGang_follower (h : (s.chan c).gang = .follower l) : s.breakGang c = s.leaveGang c := by
  simp only [State.breakGang, h]

theorem breakGang_leader {fs : List Chan} (h : (s.chan c).gang = .leader fs) :
    s.breakGang c = (fs.foldl (fun t f => t.leaveGang f) s).modChan c fun ch => { ch with gang := .none } := by
  simp only [State.breakGang, h]

theorem exec_ungang {t : State} (h : s.hears stn) (hc : chanOf? channel.toNat = some c) (hd : s.drives stn c)
    (ht : ((s.counted stn).breakGang c).settleLevers (s.counted stn) = t) :
    exec (.ungang stn channel) s = .next (t.answered stn .ungang .ok []) :=
  step_answers h (.inl rfl) rfl ((onChannel_drives (s := s.counted stn) hc hd).trans (Prod.ext ht rfl))

/-- Settles O29: the checks of GANG in their order, its join, and what a broken gang leaves. -/
theorem gangsAreJoinedAndBroken : Obligations.GangsAreJoinedAndBroken := by
  refine ⟨fun s stn leader followers h h1 h3 => ?_, fun s stn channel c h hc hd => ?_⟩
  · intro refused
    have hno : gangMembers leader followers = none → refused .badArgument := fun hm =>
      exec_gang (g := fun u => u) h h1 h3 (by simp only [gangRule, hm])
    refine ⟨fun hbad => hno (gangMembers_none hbad), fun l named hl hnamed => ⟨fun hnd => hno ?_, fun hnd => ?_⟩⟩
    · rw [gangMembers_named hl hnamed h1, if_neg hnd]
    · intro fs
      have hm : gangMembers leader followers = some (l, fs) := by rw [gangMembers_named hl hnamed h1, if_pos hnd]
      obtain ⟨hstation, hzero, hmixed, hpass⟩ := gangRefusal_cases (s := s.atEvent.counted stn) (stn := stn) (l :: fs)
      have hrefused : ∀ r, (s.atEvent.counted stn).gangRefusal stn (l :: fs) = some r → refused r := fun r hr =>
        exec_gang (g := fun u => u) h h1 h3 (gangRule_refused hm hr)
      refine ⟨fun h0 hex => hrefused _ (hstation h0 hex), fun h0 hex => hrefused _ (hzero h0 hex),
        fun h0 hall hn hh => hrefused _ (hmixed h0 hall hn hh), fun hall => ⟨fun hex => ?_, fun hfree => ?_⟩⟩
      · exact exec_gang (g := fun u => u) h h1 h3 ((gangRule_passes hm (hpass hall)).trans
          (if_pos ((anyInGang_iff (s := s.atEvent.counted stn) _).mpr hex)))
      · refine exec_gang (g := fun u => (u.joinGang l fs).settleLevers u) h h1 h3
          ((gangRule_passes hm (hpass hall)).trans (if_neg fun e => ?_))
        obtain ⟨d, hd, hbad⟩ := (anyInGang_iff (s := s.atEvent.counted stn) _).mp e
        exact hbad.elim (hfree d hd).1 fun hg => hg (hfree d hd).2
  · intro out
    refine ⟨exec_ungang h hc hd rfl, fun hg => exec_ungang h hc hd ?_, fun l fs hg hl hlc => ?_, fun fs hg hcf hn hfs => ?_⟩
    · rw [breakGang_none (s := s.counted stn) hg, settleLevers_self]
    · exact (breakGang_follower hg).trans (leaveGang_follower hg hl)
    · obtain ⟨h1, ⟨g, h2⟩, h3⟩ := leaveGang_followers s hn hcf hfs
      rw [breakGang_leader hg]
      refine ⟨fun f hf => ?_, ?_, fun d hd hdc => ?_⟩
      · have hfc : f ≠ c := fun e => hcf (e ▸ hf)
        rw [chan_modChan, if_neg hfc]
        exact h1 f hf
      · rw [chan_modChan_same, h2]
      · rw [chan_modChan, if_neg hdc]
        exact h3 d hd hdc

end Sys2Proof.Machine
end

section
/-! PROOFS. Proofs/Fetch.lean: frame selection (R132 to R135), the requests of channels (R136, R137), and fetch completions
(R138 to R141). -/

namespace Sys2Proof.Machine

variable {s : State} {c : Chan}

/-! ### Frame selection -/

theorem goodIndex_succ (faulted : List Nat) (n : Nat) :
    goodIndex faulted (n + 1) = if n + 1 ∈ faulted then goodIndex faulted n else some (n + 1) := by
  unfold goodIndex
  rw [List.range_succ (n := n + 1), List.filter_append]
  by_cases h : n + 1 ∈ faulted
  · rw [if_pos h]
    simp [h]
  · rw [if_neg h]
    simp [h]

theorem goodIndex_zero (faulted : List Nat) : goodIndex faulted 0 = if 0 ∈ faulted then none else some 0 := by
  unfold goodIndex
  by_cases h : 0 ∈ faulted <;> simp [h, List.range_succ]

theorem goodIndex_eq_none_iff {faulted : List Nat} {n : Nat} :
    goodIndex faulted n = none ↔ ∀ i ≤ n, i ∈ faulted := by
  induction n with
  | zero =>
    rw [goodIndex_zero]
    by_cases h : 0 ∈ faulted <;> simp [h]
  | succ n ih =>
    rw [goodIndex_succ]
    by_cases h : n + 1 ∈ faulted
    · rw [if_pos h, ih]
      refine ⟨fun hall i hi => ?_, fun hall i hi => hall i (Nat.le_succ_of_le hi)⟩
      rcases Nat.le_succ_iff.mp hi with hi | rfl
      · exact hall i hi
      · exact h
    · rw [if_neg h]
      exact iff_of_false (by simp) fun hall => h (hall _ le_rfl)

/-- The index selection finds is the nearest good one at or before the wanted one (R134). -/
theorem goodIndex_eq_some {faulted : List Nat} {n i : Nat} (h : goodIndex faulted n = some i) :
    i ≤ n ∧ i ∉ faulted ∧ ∀ j, i < j → j ≤ n → j ∈ faulted := by
  induction n with
  | zero =>
    rw [goodIndex_zero] at h
    split at h
    · cases h
    · next h0 =>
      cases h
      exact ⟨le_rfl, h0, fun j h1 h2 => by omega⟩
  | succ n ih =>
    rw [goodIndex_succ] at h
    split at h
    · next hn =>
      obtain ⟨hle, hgood, hbad⟩ := ih h
      refine ⟨Nat.le_succ_of_le hle, hgood, fun j h1 h2 => ?_⟩
      rcases Nat.le_succ_iff.mp h2 with h2 | rfl
      · exact hbad j h1 h2
      · exact hn
    · next hn =>
      cases h
      exact ⟨le_rfl, hn, fun j h1 h2 => by omega⟩

theorem goodIndex_self {faulted : List Nat} {n : Nat} (h : n ∉ faulted) : goodIndex faulted n = some n := by
  cases n with
  | zero => rw [goodIndex_zero, if_neg h]
  | succ n => rw [goodIndex_succ, if_neg h]

theorem blendWeight_le {blend : Bool} {position fs : Nat} (hfs : 0 < fs) : blendWeight blend position fs ≤ 15 := by
  unfold blendWeight
  split
  · have hmod : position % fs < fs := Nat.mod_lt _ hfs
    have : position % fs * 16 / fs < 16 := Nat.div_lt_of_lt_mul (by omega)
    omega
  · exact Nat.zero_le _

/-- The slot of a held frame is that of its page and index (R50). -/
theorem lookup_held {l : List Page} {frame i slot : Nat} {p : Page} {f : Bool} {before : Option Page}
    (h : lookup l frame = .held p i slot f before) : slot = p.number * 64 + i := by
  unfold lookup at h
  split at h
  · split at h
    · cases h
      rfl
    · cases h
  · cases h

theorem frameB_of_held {l : List Page} {liveEdge : Option Nat} {frame i slot e : Nat} {p : Page} {before : Option Page}
    (h : lookup l frame = .held p i slot false before) (he : liveEdge = some e) (hle : frame ≤ e) :
    frameB l liveEdge frame = some { page := p.number, index := i } := by
  simp only [frameB, h, he, if_pos hle]

/-- Frame B is held, not faulted, and at or below the live edge (R135). -/
theorem frameB_eq_some {l : List Page} {liveEdge : Option Nat} {frame : Nat} {b : FramePlace}
    (h : frameB l liveEdge frame = some b) :
    ∃ q before e, liveEdge = some e ∧ frame ≤ e ∧ lookup l frame = .held q b.index b.slot false before ∧
      b.page = q.number := by
  unfold frameB at h
  split at h
  · next q i slot before e hl =>
    split at h
    · next hle =>
      cases h
      refine ⟨q, before, e, rfl, hle, ?_, rfl⟩
      rw [hl, lookup_held hl]
      rfl
    · cases h
  · cases h

/-- The index selection wants on the lower page: the frame's, or that of the last frame before a gap (R133, R134). -/
abbrev wantedIndex (p : Page) (frame : Nat) : Nat :=
  if frame < p.firstFrame + p.count then frame - p.firstFrame else p.count - 1

/-- The weight selection uses for a good index: that of the position where the index is a held frame's own (R132, R134). -/
def weightAt (p : Page) (frame i weight : Nat) : Nat :=
  if frame < p.firstFrame + p.count ∧ i = frame - p.firstFrame then weight else 0

section
variable {l : List Page} {liveEdge : Option Nat} {blend : Bool} {position fs : Nat} {p : Page}
  (hl : lowerPage l (position / fs) = some p)
include hl

theorem selectFrames_bad (hg : goodIndex p.faulted (wantedIndex p (position / fs)) = none) :
    selectFrames l liveEdge blend position fs = none := by
  unfold wantedIndex at hg
  simp only [selectFrames, hl, decide_eq_true_eq, hg]

/-- What selection finds on the lower page with a good index (R132 to R135). -/
theorem selectFrames_good {i w : Nat} {b : Option FramePlace}
    (hg : goodIndex p.faulted (wantedIndex p (position / fs)) = some i)
    (hw : weightAt p (position / fs) i (blendWeight blend position fs) = w)
    (hb : (if w = 0 then none else frameB l liveEdge (position / fs + 1)) = b) :
    selectFrames l liveEdge blend position fs =
      some { placeA := { page := p.number, index := i }, placeB := b, weight := if b.isSome then w else 0 } := by
  have hw' : (if decide (position / fs < p.firstFrame + p.count) &&
      decide (i = wantedIndex p (position / fs)) then blendWeight blend position fs else 0) = w := by
    rw [← hw]
    unfold weightAt wantedIndex
    by_cases h : position / fs < p.firstFrame + p.count <;> simp [h]
  unfold wantedIndex at hg hw'
  simp only [selectFrames, hl, decide_eq_true_eq, hg, hw', hb]
  cases b <;> rfl

end

theorem weightAt_le {p : Page} {frame i weight n : Nat} (h : weight ≤ n) : weightAt p frame i weight ≤ n := by
  unfold weightAt
  split
  · exact h
  · exact Nat.zero_le _

/-- A weight above 0 is that of a held frame shown at its own index (R134). -/
theorem weightAt_pos {p : Page} {frame i weight w : Nat} (h : 0 < weightAt p frame i weight)
    (hw : weightAt p frame i weight = w) :
    frame < p.firstFrame + p.count ∧ i = wantedIndex p frame ∧ w = weight := by
  subst hw
  unfold weightAt at h ⊢
  split at h
  · next hi => exact ⟨hi.1, hi.2.trans (if_pos hi.1).symm, if_pos hi⟩
  · omega

/-- Settles O35: the good index, the weight, and frame B. -/
theorem selectionShowsAGoodFrame : Obligations.SelectionShowsAGoodFrame := by
  intro l liveEdge blend position fs p hfs hl hc frame isHeld wanted weight
  have hwanted : wantedIndex p frame = wanted := rfl
  refine ⟨⟨fun hall => selectFrames_bad hl (goodIndex_eq_none_iff.mpr hall), fun hnone => ?_⟩, fun sel hsel => ?_⟩
  · rw [← goodIndex_eq_none_iff]
    cases hg : goodIndex p.faulted wanted with
    | none => rfl
    | some i =>
      rw [selectFrames_good hl hg rfl rfl] at hnone
      cases hnone
  · cases hg : goodIndex p.faulted wanted with
    | none =>
      rw [selectFrames_bad hl hg] at hsel
      cases hsel
    | some i =>
      obtain ⟨hle, hgood, hbad⟩ := goodIndex_eq_some hg
      obtain ⟨w, hw⟩ : ∃ w, weightAt p frame i weight = w := ⟨_, rfl⟩
      obtain ⟨b, hb⟩ : ∃ b, (if w = 0 then none else frameB l liveEdge (frame + 1)) = b := ⟨_, rfl⟩
      rw [selectFrames_good hl hg hw hb] at hsel
      obtain rfl := (Option.some.inj hsel).symm
      have hw15 : w ≤ 15 := hw ▸ weightAt_le (blendWeight_le hfs)
      have hpos : 0 < w → isHeld ∧ i = wanted ∧ w = weight := fun h => weightAt_pos (hw ▸ h) hw
      have hsome : ∀ x, b = some x → 0 < w ∧ frameB l liveEdge (frame + 1) = some x := fun x hx => by
        rw [hx] at hb
        split at hb
        · cases hb
        · next h0 => exact ⟨Nat.pos_of_ne_zero h0, hb⟩
      refine ⟨rfl, hle, hgood, hbad, ?_, ?_, fun h => ?_, fun q j slot before e h0 hh hnf hlook he hle' => ?_,
        fun x hx => ?_⟩
      · cases b
        · exact Nat.zero_le _
        · exact hw15
      · cases b with
        | none => simp
        | some x => simp [(hsome x rfl).1]
      · cases b with
        | none => cases h
        | some x => exact hpos h
      · have hself : i = wanted := Option.some.inj (hg.symm.trans (goodIndex_self hnf))
        have hww : w = weight := by
          rw [← hw, weightAt, if_pos ⟨hh, hself.trans (if_pos hh)⟩]
        have hbq : b = some { page := q.number, index := j } := by
          rw [← hb, if_neg (by omega), frameB_of_held hlook he hle']
        subst hbq
        exact ⟨rfl, hww⟩
      · obtain ⟨q, before, e, he, hle', hlook, hq⟩ := frameB_eq_some (hsome x hx).2
        exact ⟨q, false, before, e, he, hle', hlook, rfl, hq⟩

/-! ### Requests -/

theorem issue_late {sel : Option Selected} (h : 2 ≤ (s.chan c).inFlight.length) :
    s.issue c sel = s.modChanCounts c fun n => { n with lateSkips := min (n.lateSkips + 1) 4294967295 } := if_pos h

theorem takenTag_eq {ch : Channel} {tag : Nat}
    (h : if ∃ e ∈ ch.inFlight, e.tag = ch.nextTag then tag = (ch.nextTag + 1) % 256 else tag = ch.nextTag) :
    ch.takenTag = tag := by
  unfold Channel.takenTag
  by_cases hex : ∃ e ∈ ch.inFlight, e.tag = ch.nextTag
  · rw [if_pos hex] at h
    rw [if_pos (by simpa using hex), h]
  · rw [if_neg hex] at h
    rw [if_neg (by simpa using hex), h]

/-- A request that is issued: its entry, its holds, and its word at the port (R136). -/
theorem issue_taken {sel : Option Selected} {tag : Nat} {pageA pageB : Option Nat} (hlen : (s.chan c).inFlight.length < 2)
    (ht : (s.chan c).takenTag = tag) (ha : sel.map (·.placeA.page) = pageA)
    (hb : ((sel.bind (·.placeB)).bind fun b => if some b.page = pageA then none else some b.page) = pageB) :
    s.issue c sel =
      { (((s.modPage? pageA fun p => { p with fetchHolds := p.fetchHolds + 1 }).modPage? pageB
          fun p => { p with fetchHolds := p.fetchHolds + 1 }).modChan c fun ch =>
            { ch with
                inFlight := ch.inFlight ++
                  [{ tag := tag, black := sel.isNone, pageA := pageA, pageB := pageB, superseded := false }]
                nextTag := (tag + 1) % 256
                counts := { ch.counts with issued := min (ch.counts.issued + 1) 4294967295 } }) with
        fetchOut := s.fetchOut ++
          [{ channel := c, tag := tag, slotA := sel.map (·.placeA.slot), slotB := (sel.bind (·.placeB)).map (·.slot)
             weight := (sel.map (·.weight)).getD 0, black := sel.isNone }] } := by
  subst ht ha hb
  have hout : ∀ (t : State) (n : Option Nat) (f : Page → Page), (t.modPage? n f).fetchOut = t.fetchOut := fun t n f => by
    cases n <;> rfl
  unfold State.issue
  dsimp only
  rw [if_neg (Nat.not_le.mpr hlen)]
  simp only [modChan_fetchOut, hout]
  rfl

/-- Settles O36: the request that is due, the late skip, and the three forms of a request. -/
theorem requestsTakeATagAndHolds : Obligations.RequestsTakeATagAndHolds := by
  intro s c x hh ch
  refine ⟨rfl, fun h sel => issue_late h, fun hb => ?_, fun hb hs => ?_, fun sel hb hs => ?_, fun tag hlen htag => ?_⟩
  · simp only [State.requestFor, hh]
    exact if_pos hb
  · simp only [State.requestFor, hh, hs]
    exact if_neg (Bool.eq_false_iff.mp hb)
  · simp only [State.requestFor, hh, hs]
    exact if_neg (Bool.eq_false_iff.mp hb)
  · intro issued hold
    have ht := takenTag_eq htag
    refine ⟨issue_taken hlen ht rfl rfl, fun a b w => ⟨issue_taken hlen ht rfl rfl, ?_⟩⟩
    by_cases hab : b.page = a.page
    · rw [if_pos hab, if_pos hab]
      exact issue_taken (sel := some { placeA := a, placeB := some b, weight := w }) (pageB := none) hlen ht rfl
        (if_pos (congrArg some hab))
    · rw [if_neg hab, if_neg hab]
      exact issue_taken (sel := some { placeA := a, placeB := some b, weight := w }) (pageB := some b.page) hlen ht rfl
        (if_neg fun e => hab (Option.some.inj e))

/-! ### Completions -/

theorem splitTag_none {tag : Nat} {l : List FetchEntry} (h : ∀ e ∈ l, e.tag ≠ tag) : splitTag tag l = none := by
  induction l with
  | nil => rfl
  | cons e rest ih =>
    have hrest := ih fun x hx => h x (List.mem_cons_of_mem _ hx)
    simp [splitTag, h e List.mem_cons_self, hrest]

theorem splitTag_first {tag : Nat} {older newer : List FetchEntry} {e : FetchEntry} (he : e.tag = tag)
    (ho : ∀ o ∈ older, o.tag ≠ tag) : splitTag tag (older ++ e :: newer) = some (older, e, newer) := by
  induction older with
  | nil => simp [splitTag, he]
  | cons o rest ih =>
    have hrest := ih fun x hx => ho x (List.mem_cons_of_mem _ hx)
    simp [splitTag, ho o List.mem_cons_self, hrest]

theorem exec_fetchCompletion {channel : BitVec 3} {tag : BitVec 8} {status : BitVec 2} (hr : s.resetHeld = false)
    (hc : chanOf? channel.toNat = some c) :
    exec (.fetchCompletion channel tag status) s = .next (s.fetchCompleted c tag.toNat (status == 0)) := by
  simp only [exec, execFetchCompletion, act_released _ hr, hc]

theorem fetchCompleted_matched {tag : Nat} {ok : Bool} {older newer : List FetchEntry} {e : FetchEntry}
    (hl : (s.chan c).inFlight = older ++ e :: newer) (he : e.tag = tag) (ho : ∀ o ∈ older, o.tag ≠ tag) :
    s.fetchCompleted c tag ok =
      if ok then (s.releaseFetch e).modChan c (completeOk e older newer)
      else if e.black then (s.releaseFetch e).modChan c (completeFault e older newer)
      else ((s.releaseFetch e).modChan c (completeFault e older newer)).raiseChanAlert c (.readFault c) := by
  simp only [State.fetchCompleted, hl, splitTag_first he ho]

theorem holder_releaseFetch (e : FetchEntry) (f : Channel → Channel) (d : Chan) :
    ((s.releaseFetch e).modChan c f).holder d = s.holder d := by
  obtain ⟨tag, black, a, b, superseded⟩ := e
  cases a <;> cases b <;> rfl

/-- Settles O37: a completion by its channel, its tag and its status. -/
theorem fetchCompletionsAreMatchedByTag : Obligations.FetchCompletionsAreMatchedByTag := by
  refine fun s channel tag status hr => ⟨fun hc => ?_, fun c hc => ⟨fun hno => ?_, fun older e newer hl he ho => ?_⟩⟩
  · simp only [exec, execFetchCompletion, act_released _ hr, hc]
    rfl
  · rw [exec_fetchCompletion hr hc]
    simp only [State.fetchCompleted, splitTag_none hno]
    rfl
  · intro drop freed
    have hmatched : ∀ ok, s.fetchCompleted c tag.toNat ok = _ := fun ok => fetchCompleted_matched (ok := ok) hl he ho
    have hfault : status ≠ 0 → (status == 0) = false := fun h => beq_eq_false_iff_ne.mpr h
    rw [exec_fetchCompletion hr hc, hmatched]
    refine ⟨fun hs hsup => ?_, fun hs hsup => ?_, ?_⟩
    · subst hs
      rw [if_pos (by decide)]
      have : completeOk e older newer = fun ch => { ch with
          inFlight := older.map (fun o => { o with superseded := true }) ++ newer, lastShown := some e.tag
          frameValid := true } := funext fun ch => by simp only [completeOk, hsup]; rfl
      rw [this]
      rfl
    · subst hs
      rw [if_pos (by decide)]
      have : completeOk e older newer = fun ch => { ch with
          inFlight := older ++ newer
          counts := { ch.counts with stale := min (ch.counts.stale + 1) 4294967295 } } :=
        funext fun ch => by simp only [completeOk, hsup]; rfl
      rw [this]
      rfl
    · intro stale
      refine ⟨fun hs hb => ?_, fun hs hb => ?_⟩
      · have : completeFault e older newer = fun ch => { ch with
            inFlight := older ++ newer, frameValid := if e.superseded then ch.frameValid else false
            counts := { ch.counts with stale := stale ch.counts.stale } } :=
          funext fun ch => by simp only [completeFault, hb]; rfl
        rw [hfault hs, if_neg (by decide), if_pos hb, this]
        rfl
      · have : completeFault e older newer = fun ch => { ch with
            inFlight := older ++ newer, frameValid := if e.superseded then ch.frameValid else false
            counts := { ch.counts with
              readFaults := min (ch.counts.readFaults + 1) 4294967295, stale := stale ch.counts.stale } } :=
          funext fun ch => by simp only [completeFault, hb]; rfl
        rw [hfault hs, if_neg (by decide), if_neg (by simp [hb]), this]
        unfold State.raiseChanAlert
        rw [holder_releaseFetch]
        rfl

end Sys2Proof.Machine
end

section
/-! PROOFS. Proofs/Claims.lean: selection (R94, R147), claims and releases (R148 to R155), the grants of the arbiter (R150), and
program and preview (R157, R158). -/

namespace Sys2Proof.Machine

variable {s t u : State} {stn : Station} {c : Chan} {m : List Part}

/-! ### Parts that a change leaves alone, whole -/

theorem Link.eq_of_rest {a b : Link} (h : a.rest = b.rest) (hs : a.state = b.state) (he : a.enabled = b.enabled) : a = b := by
  have ha : a = { a.rest with state := a.state, enabled := a.enabled } := rfl
  have hb : b = { b.rest with state := b.state, enabled := b.enabled } := rfl
  rw [ha, hb, h, hs, he]

/-- A change that touches no link leaves each link as it is. -/
theorem Frame.link (h : Frame m s t) (h1 : Part.linkStates ∉ m) (h2 : Part.links ∉ m) (k : Station) :
    t.link k = s.link k := by
  obtain ⟨hs, he⟩ := h .linkStates h1 k
  exact Link.eq_of_rest (h .links h2 k) hs he

/-- A change that touches neither routes nor claims leaves the arbiter as it is. -/
theorem Frame.arbiter (h : Frame m s t) (h1 : Part.routes ∉ m) (h2 : Part.claims ∉ m) : t.arbiter = s.arbiter := by
  obtain ⟨hpgm, hpvw⟩ := h .routes h1
  obtain ⟨hh, hc, hd⟩ := h .claims h2
  have heta : ∀ x : Arbiter, x = ⟨x.holders, x.claims, x.coolDown, x.pgm, x.pvw⟩ := fun _ => rfl
  rw [heta t.arbiter, hh, hc, hd, hpgm, hpvw]

/-! ### Gangs and lever targets under moves of playheads -/

theorem gang_writeHead (c d : Chan) (h : Playhead) : ((s.writeHead c h).chan d).gang = (s.chan d).gang := by
  rw [chan_writeHead]
  split
  · next e => subst e; rfl
  · rfl

theorem gang_moveFollowers (l d : Chan) : ((s.moveFollowers l).chan d).gang = (s.chan d).gang := by
  have hone : ∀ (t : State) (f : Chan), ((t.followOne l f).chan d).gang = (t.chan d).gang := fun t f => by
    unfold State.followOne
    split
    · exact gang_writeHead ..
    · rfl
  have hfold : ∀ (fs : List Chan) (t : State),
      ((fs.foldl (fun t f => t.followOne l f) t).chan d).gang = (t.chan d).gang := fun fs => by
    induction fs with
    | nil => exact fun _ => rfl
    | cons f rest ih => exact fun t => (ih _).trans (hone t f)
  exact hfold _ _

theorem gang_steer (c d : Chan) (g : Playhead → Playhead) : ((s.steer c g).chan d).gang = (s.chan d).gang := by
  rw [State.steer, gang_moveFollowers, chan_modHead]
  split
  · next e => subst e; rfl
  · rfl

theorem gang_pauseShuttle (c d : Chan) : ((s.pauseShuttle c).chan d).gang = (s.chan d).gang := by
  unfold State.pauseShuttle
  split
  · split
    · exact gang_steer ..
    · rfl
  · rfl

theorem leaderOf_congr (h : ∀ d, (t.chan d).gang = (s.chan d).gang) : t.leaderOf = s.leaderOf := by
  funext c
  simp only [State.leaderOf, h]

theorem leverTarget_congr (h : ∀ d, (t.chan d).gang = (s.chan d).gang) {k : Station}
    (hk : (t.link k).selected = (s.link k).selected) : t.leverTarget k = s.leverTarget k := by
  rw [State.leverTarget, State.leverTarget, hk, leaderOf_congr h]

theorem link_pauseShuttle (c : Chan) (k : Station) : (s.pauseShuttle c).link k = s.link k :=
  Frame.link (frame_pauseShuttle (m := [.channels, .pages]) (by decide) (by decide) c (Frame.refl _ s)) (by decide)
    (by decide) k

theorem leverTarget_pauseShuttle (c : Chan) (k : Station) : (s.pauseShuttle c).leverTarget k = s.leverTarget k :=
  leverTarget_congr (gang_pauseShuttle c) (by rw [link_pauseShuttle])

/-- What the settling of the levers does for one station (R94). -/
def State.settleLever (s before : State) (k : Station) : State :=
  match before.leverTarget k with
  | some c => if s.leverTarget k = some c then s else s.pauseShuttle c
  | none => s

theorem settleLevers_eq (before : State) :
    s.settleLevers before = allStations.foldl (fun t k => t.settleLever before k) s := rfl

theorem settleLever_kept {before : State} {k : Station} (h : s.leverTarget k = before.leverTarget k) :
    s.settleLever before k = s := by
  unfold State.settleLever
  cases hb : before.leverTarget k with
  | none => rfl
  | some c => exact if_pos (h.trans hb)

theorem leverTarget_settleLever (before : State) (k j : Station) :
    (s.settleLever before k).leverTarget j = s.leverTarget j := by
  unfold State.settleLever
  split
  · split
    · rfl
    · exact leverTarget_pauseShuttle ..
  · rfl

/-- Where the lever target of one station alone may have changed, the settling is that of this station (R94). -/
theorem settleLevers_one {before : State} {k : Station} (h : ∀ j, j ≠ k → s.leverTarget j = before.leverTarget j) :
    s.settleLevers before = s.settleLever before k := by
  have hfold : ∀ (l : List Station), l.Nodup → ∀ t : State, (∀ j, j ≠ k → t.leverTarget j = before.leverTarget j) →
      l.foldl (fun t k => t.settleLever before k) t = if k ∈ l then t.settleLever before k else t := fun l => by
    induction l with
    | nil => exact fun _ _ _ => rfl
    | cons i rest ih =>
      intro hn t ht
      obtain ⟨hi, hrest⟩ := List.nodup_cons.mp hn
      rw [List.foldl_cons, ih hrest _ fun j hj => (leverTarget_settleLever ..).trans (ht j hj)]
      by_cases hik : i = k
      · subst hik
        rw [if_neg hi, if_pos List.mem_cons_self]
      · rw [settleLever_kept (ht i hik)]
        simp [Ne.symm hik]
  rw [settleLevers_eq, hfold _ nodup_allStations _ h, if_pos (mem_allStations k)]

/-! ### SELECT -/

theorem exec_select {channel : Byte} {wanted : Option Chan} (h : s.hears stn)
    (hw : channel = 0 ∧ wanted = none ∨ ∃ c, wanted = some c ∧ chanOf? channel.toNat = some c ∧ s.drives stn c) :
    exec (.select stn channel) s =
      .next ((((s.counted stn).modLink stn fun l => { l with selected := wanted }).settleLevers
        (s.counted stn)).answered stn .select .ok []) := by
  refine step_answers h (.inl rfl) rfl ?_
  rcases hw with ⟨rfl, rfl⟩ | ⟨c, rfl, hc, hd⟩
  · exact if_pos rfl
  · have h0 : channel ≠ 0 := fun e => by
      rw [e] at hc
      cases hc
    exact (if_neg h0).trans (onChannel_drives (s := s.counted stn) hc hd)

/-- The settling of a station that has selected: the channel that was its lever target is paused, where it is in SHUTTLE and
another channel is the target now (R94, R147). -/
theorem settleLevers_selected (wanted : Option Chan) :
    (((s.counted stn).modLink stn fun l => { l with selected := wanted }).settleLevers (s.counted stn)) =
      ((s.counted stn).modLink stn fun l => { l with selected := wanted }).settleLever (s.counted stn) stn :=
  settleLevers_one fun j hj =>
    leverTarget_congr (s := s.counted stn)
      (t := (s.counted stn).modLink stn fun l => { l with selected := wanted }) (fun _ => rfl)
      (by simp only [link_modLink, if_neg hj])

theorem pauseShuttle_moves {x : Playhead} (hh : (s.chan c).head = some x) (hm : x.mode = .shuttle)
    (hf : s.isFollower c = false) : s.pauseShuttle c = s.steer c Playhead.pause := by
  have hcond : (decide (x.mode = .shuttle) && !s.isFollower c) = true := by simp [hm, hf]
  simp only [State.pauseShuttle, hh, hcond, if_true]

theorem pauseShuttle_stands (h : ∀ x, (s.chan c).head = some x → x.mode ≠ .shuttle ∨ s.isFollower c = true) :
    s.pauseShuttle c = s := by
  unfold State.pauseShuttle
  cases hh : (s.chan c).head with
  | none => rfl
  | some x =>
    refine if_neg fun e => ?_
    rw [Bool.and_eq_true, decide_eq_true_eq, Bool.not_eq_true'] at e
    rcases h x hh with hm | hf
    · exact hm e.1
    · exact Bool.eq_false_iff.mp e.2 hf

/-- Settles O38: the selection, and the SHUTTLE channel that is no lever target any more. -/
theorem selectMovesTheLeverTarget : Obligations.SelectMovesTheLeverTarget := by
  intro s stn channel wanted h hw set
  have htarget : set.leverTarget stn = wanted.map s.leaderOf := by
    simp only [State.leverTarget, set, link_modLink_same]
    rfl
  rw [exec_select h hw, settleLevers_selected]
  refine ⟨fun c x hs hne hh hm hf => ?_, fun hall => ?_⟩
  · have hpause : set.settleLever (s.counted stn) stn = set.pauseShuttle c := by
      simp only [State.settleLever, leverTarget_counted, hs, htarget, if_neg hne]
    rw [hpause, pauseShuttle_moves (s := set) hh hm hf]
    rfl
  · have hstand : set.settleLever (s.counted stn) stn = set := by
      cases hs : s.leverTarget stn with
      | none => simp only [State.settleLever, leverTarget_counted, hs]
      | some c =>
        simp only [State.settleLever, leverTarget_counted, hs, htarget]
        by_cases hw' : wanted.map s.leaderOf = some c
        · exact if_pos hw'
        · rw [if_neg hw']
          exact pauseShuttle_stands fun x hx => (hall c x hs hx).resolve_left hw'
    rw [hstand]

/-! ### CLAIM and CANCEL -/

/-- CANCEL is taken with a pending CLAIM too (R152, R169). -/
theorem exec_cancel {r : Result} {data : List Byte} (hr : s.resetHeld = false) (hs : (s.link stn).state ≠ .off)
    (hb : cancelRule stn (s.counted stn) = (t, { result := some r, data := data })) :
    exec (.cancel stn) s = .next (t.answered stn .cancel r data) := by
  have hstart : startCommand stn .cancel true (cancelRule stn) s =
      (cancelRule stn (s.counted stn)).1.writeAck stn (ackOf CommandKind.cancel.code (cancelRule stn (s.counted stn)).2) := by
    unfold startCommand
    rw [if_neg hs, if_neg (by rw [Bool.and_eq_true]; exact fun e => absurd e.2 (by decide)), if_neg (by simp [CommandKind.isReserved]),
      if_neg (by decide)]
    rfl
  refine (act_released _ hr).trans (congrArg Host.Outcome.next (hstart.trans ?_))
  rw [hb]
  rfl

/-- Settles O39: CLAIM by who holds the channel, and CANCEL by what there is to end. -/
theorem claimsArePlacedAndCancelled : Obligations.ClaimsArePlacedAndCancelled := by
  refine fun s stn => ⟨fun channel c h hc => ⟨fun hh => ?_, fun hh => ?_⟩, fun channel h hc => ?_, fun hr hs =>
    ⟨fun p hp => exec_cancel hr hs ?_, fun hp hl => exec_cancel hr hs ?_, fun hp hl => exec_cancel hr hs ?_⟩⟩
  · refine step_answers h (.inl rfl) rfl ?_
    have hh : (s.counted stn).holder c = some stn := hh
    simp only [claimRule, hc, if_pos hh, chanByte_chanOf? hc]
    rfl
  · have hh : (s.counted stn).holder c ≠ some stn := hh
    have hbody : claimRule stn channel (s.counted stn) =
        ((s.counted stn).setPendingClaim stn (some { channel := c, age := 0 }), { result := none, data := [] }) := by
      simp only [claimRule, hc, if_neg hh]
    refine (step_startCommand (body := claimRule stn channel) h (.inl rfl) rfl).trans ?_
    rw [hbody]
    rfl
  · refine step_answers h (.inl rfl) rfl ?_
    simp only [claimRule, hc]
    rfl
  · have hp : (s.counted stn).pendingClaim stn = some p := hp
    simp only [cancelRule, hp]
    rfl
  · have hp : (s.counted stn).pendingClaim stn = none := hp
    simp only [cancelRule, hp, link_counted_listing, if_neg hl]
    rfl
  · have hp : (s.counted stn).pendingClaim stn = none := hp
    simp only [cancelRule, hp, link_counted_listing, if_pos hl]
    rfl

/-! ### RELEASE and FORCE RELEASE -/

theorem releaseRule_held (h : s.holder c = some stn) :
    releaseRule stn c s = ((s.releaseChan stn c).enterCoolDown stn c, .plain .ok) := if_pos h

theorem forceReleaseRule_held {channel : Byte} {k : Station} (hc : chanOf? channel.toNat = some c)
    (h : s.holder c = some k) :
    forceReleaseRule channel s = ((s.releaseChan k c).enterCoolDown k c, .plain .ok) := by
  simp only [forceReleaseRule, hc, h]

/-- Settles O40: the releases of a held channel, and those that change nothing. -/
theorem releasesStartACoolDown : Obligations.ReleasesStartACoolDown := by
  refine ⟨fun s channel h hc => ?_, fun s channel c hc => ?_⟩
  · refine step_answers h (.inr rfl) rfl ?_
    simp only [forceReleaseRule, hc]
    rfl
  · intro released
    refine ⟨fun stn h hh => ?_, fun h => ⟨fun hn => ⟨?_, ?_⟩, fun k hh => ?_⟩⟩
    · exact step_answers h (.inl rfl) rfl ((onChannel_drives (s := s.counted stn) hc (.inl hh)).trans
        (releaseRule_held (s := s.counted stn) hh))
    · refine step_answers h (.inl rfl) rfl ((onChannel_drives (s := s.counted 0) hc (.inr ⟨rfl, hn⟩)).trans (if_neg ?_))
      rw [show (s.counted 0).holder c = none from hn]
      exact nofun
    · refine step_answers h (.inr rfl) rfl ?_
      have hn : (s.counted 0).holder c = none := hn
      simp only [forceReleaseRule, hc, hn]
      rfl
    · exact step_answers h (.inr rfl) rfl (forceReleaseRule_held (s := s.counted 0) hc hh)

/-! ### Program and preview -/

section
variable {channel : Byte} {r : Result} {kind : CommandKind}

theorem onRoute_none {rule : Chan → State → State × Reply} (hc : chanOf? channel.toNat = none) :
    onRoute stn channel rule s = (s, .plain .badArgument) := by
  simp only [onRoute, hc]

theorem onRoute_refused {rule : Chan → State → State × Reply} (hc : chanOf? channel.toNat = some c) (h0 : stn ≠ 0)
    (hh : s.holder c ≠ some stn) : onRoute stn channel rule s = (s, .plain .notClaimed) := by
  have : (decide (stn = 0) || decide (s.holder c = some stn)) = false := by simp [h0, hh]
  simp only [onRoute, hc, this]
  rfl

theorem onRoute_passes {rule : Chan → State → State × Reply} (hc : chanOf? channel.toNat = some c)
    (h : stn = 0 ∨ s.holder c = some stn) : onRoute stn channel rule s = rule c s := by
  have : (decide (stn = 0) || decide (s.holder c = some stn)) = true := by simpa using h
  simp only [onRoute, hc, this, if_true]

end

/-- The lowest-numbered channel other than a given one (R157). -/
theorem otherChannel_eq (c : Chan) : (allChans.find? (· != c)).getD 0 = if c = 0 then 1 else 0 := by
  fin_cases c <;> decide

theorem cutRule_elsewhere (hp : s.arbiter.pgm ≠ c) (hv : s.arbiter.pvw ≠ c) :
    cutRule c s = ({ s with arbiter := { s.arbiter with pgm := c } }, .plain .ok) := by
  simp only [cutRule, if_neg hp, if_neg hv]

theorem cutRule_preview (hp : s.arbiter.pgm ≠ c) (hv : s.arbiter.pvw = c) :
    cutRule c s = ({ s with arbiter := { s.arbiter with pgm := c, pvw := if c = 0 then 1 else 0 } }, .plain .ok) := by
  simp only [cutRule, if_neg hp, if_pos hv, otherChannel_eq]

theorem mayTake_iff : s.mayTake stn = true ↔ stn = 0 ∨ s.holder s.arbiter.pvw = some stn := by
  rw [State.mayTake, Bool.or_eq_true, decide_eq_true_eq, decide_eq_true_eq]

/-- Settles O41: CUT, PREVIEW and TAKE by who may, and where the channel stands. -/
theorem routesAreCutPreviewedAndTaken : Obligations.RoutesAreCutPreviewedAndTaken := by
  intro s stn h routed pgm pvw
  have hcut : ∀ {channel} {t : State} {r}, onRoute stn channel cutRule (s.counted stn) = (t, .plain r) →
      exec (.cut stn channel) s = .next (t.answered stn .cut r []) := fun e => step_answers h (.inl rfl) rfl e
  have hpreview : ∀ {channel} {t : State} {r}, onRoute stn channel previewRule (s.counted stn) = (t, .plain r) →
      exec (.preview stn channel) s = .next (t.answered stn .preview r []) := fun e => step_answers h (.inl rfl) rfl e
  refine ⟨fun channel c hc => ⟨fun h0 hh => ⟨hcut (onRoute_refused hc h0 hh), hpreview (onRoute_refused hc h0 hh)⟩,
    fun hmay => ?_⟩, fun channel hc => ⟨hcut (onRoute_none hc), hpreview (onRoute_none hc)⟩, fun hmay => ?_,
    fun h0 hh => ?_⟩
  · have hpass : ∀ rule : Chan → State → State × Reply, onRoute stn channel rule (s.counted stn) = rule c (s.counted stn) :=
      fun rule => onRoute_passes (s := s.counted stn) hc hmay
    refine ⟨fun hp => hcut ((hpass _).trans (if_pos hp)), fun hp hv => ?_, fun hp hv => ?_,
      fun hv => hpreview ((hpass _).trans (if_pos hv)), fun hv hp => ?_, fun hv hp => ?_⟩
    · exact hcut ((hpass _).trans (cutRule_elsewhere (s := s.counted stn) hp hv))
    · exact hcut ((hpass _).trans (cutRule_preview (s := s.counted stn) hp hv))
    · exact hpreview ((hpass _).trans ((if_neg hv).trans (if_pos hp)))
    · exact hpreview ((hpass _).trans ((if_neg hv).trans (if_neg hp)))
  · refine step_answers h (.inl rfl) rfl (if_pos ?_)
    exact mayTake_iff.mpr hmay
  · refine step_answers h (.inl rfl) rfl (if_neg ?_)
    exact fun e => (mayTake_iff.mp e).elim h0 hh

/-! ### Grants -/

/-- The station that asks for a channel and is not in cool-down for it (R150). -/
abbrev State.Asks (s : State) (c : Chan) (k : Station) : Prop :=
  (∃ age, s.pendingClaim k = some { channel := c, age := age }) ∧ s.coolDownRun k c = none

theorem asks_iff {k : Station} :
    ((s.pendingClaim k).map (·.channel) = some c && (s.coolDownRun k c).isNone) = true ↔ s.Asks c k := by
  rw [Bool.and_eq_true, decide_eq_true_eq, Option.isNone_iff_eq_none, Option.map_eq_some_iff]
  refine and_congr_left fun _ => ⟨fun ⟨p, hp, hc⟩ => ⟨p.age, by rw [hp, ← hc]⟩, fun ⟨age, hp⟩ => ⟨_, hp, rfl⟩⟩

/-- The first station of a search is the lowest-numbered one that meets the test. -/
theorem find?_allStations {p : Station → Bool} {k : Station} (hk : p k = true) (hl : ∀ j, j < k → p j = false) :
    allStations.find? p = some k := by
  have h : allStations = List.finRange 5 := by decide
  rw [h, List.find?_eq_some_iff_getElem]
  refine ⟨hk, k.val, by simp, by simp, fun j hj => ?_⟩
  simpa using hl ⟨j, by omega⟩ hj

theorem grantee_none (h : ∀ k, ¬ s.Asks c k) : s.grantee c = none :=
  List.find?_eq_none.mpr fun k _ e => h k (asks_iff.mp e)

theorem grantee_some {k : Station} (hk : s.Asks c k) (hl : ∀ j, j < k → ¬ s.Asks c j) : s.grantee c = some k :=
  find?_allStations (asks_iff.mpr hk) fun j hj => Bool.eq_false_iff.mpr fun e => hl j hj (asks_iff.mp e)

/-- Settles O42: the channels that stand, and the grant to the lowest-numbered station that asks. -/
theorem grantsGoToTheLowestStation : Obligations.GrantsGoToTheLowestStation := by
  refine fun s c => ⟨fun hh => if_pos (Option.isSome_iff_ne_none.mpr hh), fun hh hno => ?_, fun k hh hk hl => ?_⟩
  · unfold State.grantChan
    rw [if_neg (by simp [hh]), grantee_none hno]
  · intro t0 t1 t2
    unfold State.grantChan
    rw [if_neg (by simp [hh]), grantee_some hk hl]
    dsimp only
    have hselect : (fun l : Link => { l with selected := if l.selected.isNone then some c else l.selected }) =
        fun l => { l with selected := if l.selected = none then some c else l.selected } := funext fun l => by
      simp only [Option.isNone_iff_eq_none]
    unfold State.grant
    rw [hselect]
    rfl

end Sys2Proof.Machine
end

section
/-! PROOFS. Proofs/Links.lean: the loss of a link and its grace (R111, R156, R163, R164), its listing (R173), and LINK SET
(R161, R180). -/

namespace Sys2Proof.Machine

variable {s t u : State} {k : Station} {c d : Chan} {h : Playhead}

/-! ### The pause of a station's channels (R111) -/

/-- A playhead paused at the loss of its station's link (R111). -/
def Playhead.lost (h : Playhead) : Playhead :=
  match h.mode with
  | .play | .shuttle => h.pause
  | .clip ctx => h.stopRunning ctx
  | _ => h

theorem pauseMoving_cases (c : Chan) : s.pauseMoving c = s ∨ ∃ g, s.pauseMoving c = s.steer c g := by
  unfold State.pauseMoving
  repeat' split
  all_goals first | exact .inl rfl | exact .inr ⟨_, rfl⟩

/-- What the loss of a station's link does to one channel (R111). -/
def State.pauseHeld (s : State) (k : Station) (c : Chan) : State :=
  if s.holder c = some k && !s.isFollower c then s.pauseMoving c else s

theorem pauseStation_eq : s.pauseStation k = allChans.foldl (fun t c => t.pauseHeld k c) s := rfl

theorem pauseHeld_cases (k : Station) (c : Chan) : s.pauseHeld k c = s ∨ ∃ g, s.pauseHeld k c = s.steer c g := by
  unfold State.pauseHeld
  split
  · exact pauseMoving_cases c
  · exact .inl rfl

theorem gang_pauseHeld (k : Station) (c d : Chan) : ((s.pauseHeld k c).chan d).gang = (s.chan d).gang := by
  rcases pauseHeld_cases (s := s) k c with e | ⟨g, e⟩ <;> rw [e]
  exact gang_steer ..

theorem holder_pauseHeld (k : Station) (c d : Chan) : (s.pauseHeld k c).holder d = s.holder d := by
  rcases pauseHeld_cases (s := s) k c with e | ⟨g, e⟩ <;> rw [e]
  exact congrArg (fun x : Arbiter => x.holders.get d)
    (Frame.arbiter (frame_steer (m := [.channels, .pages]) (by decide) (by decide) c g (Frame.refl _ s)) (by decide)
      (by decide))

theorem followersOf_congr (hg : ∀ d, (t.chan d).gang = (s.chan d).gang) (d : Chan) : t.followersOf d = s.followersOf d := by
  rw [State.followersOf, hg, State.followersOf]

theorem isFollower_congr (hg : ∀ d, (t.chan d).gang = (s.chan d).gang) (d : Chan) : t.isFollower d = s.isFollower d := by
  rw [State.isFollower, hg, State.isFollower]

theorem chan_pauseHeld_ne (hd : c ≠ d) (hf : c ∉ s.followersOf d) : (s.pauseHeld k d).chan c = s.chan c := by
  rcases pauseHeld_cases (s := s) k d with e | ⟨g, e⟩ <;> rw [e]
  exact chan_steer_ne hd hf g

theorem head_pauseHeld (hh : s.holder c = some k) (hn : s.isFollower c = false) (hf : c ∉ s.followersOf c)
    (hx : (s.chan c).head = some h) : ((s.pauseHeld k c).chan c).head = some h.lost := by
  have hmoves : ∀ g : Playhead → Playhead, ((s.steer c g).chan c).head = some (g h) := fun g => by
    rw [chan_steer_same hf, hx]
    rfl
  have hheld : (decide (s.holder c = some k) && !s.isFollower c) = true := by simp [hh, hn]
  unfold State.pauseHeld
  rw [if_pos hheld]
  unfold State.pauseMoving Playhead.lost
  rw [hx]
  dsimp only
  cases h.mode with
  | play => exact hmoves _
  | shuttle => exact hmoves _
  | clip ctx =>
    dsimp only
    by_cases hr : ctx.running = true
    · rw [if_pos hr]
      exact hmoves _
    · rw [if_neg hr, Playhead.stopRunning, if_neg hr]
      exact hx
  | live => exact hx
  | paused => exact hx
  | follow => exact hx

/-- The fold of the pause reaches each channel once, and no other channel's pause moves it. -/
theorem chan_foldl_pauseHeld {cs : List Chan} (hc : c ∉ cs) :
    ∀ {s : State}, (∀ d, c ∉ s.followersOf d) → (cs.foldl (fun t d => t.pauseHeld k d) s).chan c = s.chan c := by
  induction cs with
  | nil => exact fun _ => rfl
  | cons d rest ih =>
    intro s hf
    obtain ⟨hd, hrest⟩ := not_or.mp (mt List.mem_cons.mpr hc)
    refine (ih hrest fun e => ?_).trans (chan_pauseHeld_ne hd (hf d))
    rw [followersOf_congr (gang_pauseHeld k d)]
    exact hf e

theorem head_foldl_pauseHeld {cs : List Chan} (hmem : c ∈ cs) (hnd : cs.Nodup) :
    ∀ {s : State}, (∀ d, c ∉ s.followersOf d) → s.holder c = some k → s.isFollower c = false → (s.chan c).head = some h →
      ((cs.foldl (fun t d => t.pauseHeld k d) s).chan c).head = some h.lost := by
  induction cs with
  | nil => exact absurd hmem (List.not_mem_nil)
  | cons d rest ih =>
    intro s hf hh hn hx
    obtain ⟨hd, hrest⟩ := List.nodup_cons.mp hnd
    have hf' : ∀ e, c ∉ (s.pauseHeld k d).followersOf e := fun e => by
      rw [followersOf_congr (gang_pauseHeld k d)]
      exact hf e
    rw [List.foldl_cons]
    by_cases e : c = d
    · subst e
      rw [chan_foldl_pauseHeld hd hf']
      exact head_pauseHeld hh hn (hf c) hx
    · refine ih ((List.mem_cons.mp hmem).resolve_left e) hrest hf' ((holder_pauseHeld ..).trans hh)
        ((isFollower_congr (gang_pauseHeld k d) c).trans hn) ?_
      rw [chan_pauseHeld_ne e (hf d)]
      exact hx

theorem head_pauseStation (hf : ∀ d, c ∉ s.followersOf d) (hh : s.holder c = some k) (hn : s.isFollower c = false)
    (hx : (s.chan c).head = some h) : ((s.pauseStation k).chan c).head = some h.lost :=
  head_foldl_pauseHeld (mem_allChans c) nodup_allChans hf hh hn hx

/-! ### The release of a station's claims (R156) -/

theorem frame_change_of_holder (before : State) (c : Chan) : Frame [.channels, .pages] s (s.holderChanged before c) :=
  frame_holderChanged (by decide) (by decide) before c (Frame.refl _ s)

theorem arbiter_releaseChan (c : Chan) : (s.releaseChan k c).arbiter = (s.setHolder c none).arbiter := by
  rw [State.releaseChan, Frame.arbiter (frame_change_of_holder (s := (s.setHolder c none).deselect k c) s c) (by decide)
    (by decide), State.deselect, modLink_arbiter]

theorem session_releaseChan (c : Chan) (j : Station) : ((s.releaseChan k c).link j).session = (s.link j).session := by
  have hlink := Frame.link (frame_change_of_holder (s := (s.setHolder c none).deselect k c) s c) (by decide) (by decide) j
  rw [State.releaseChan, hlink, State.deselect, link_modLink]
  split <;> rfl

/-- The release of one channel, where the station holds it (R156). -/
def State.releaseHeld (s : State) (k : Station) (c : Chan) : State :=
  if s.holder c = some k then s.releaseChan k c else s

theorem holder_releaseHeld (k : Station) (c d : Chan) :
    (s.releaseHeld k c).holder d = if d = c ∧ s.holder d = some k then none else s.holder d := by
  unfold State.releaseHeld
  split
  · next hc =>
    have hholder : (s.releaseChan k c).holder d = (s.setHolder c none).holder d :=
      congrArg (fun x : Arbiter => x.holders.get d) (arbiter_releaseChan c)
    rw [hholder, holder_setHolder]
    by_cases e : d = c
    · subst e
      rw [if_pos rfl, if_pos ⟨rfl, hc⟩]
    · rw [if_neg e, if_neg fun x => e x.1]
  · next hc => exact (if_neg fun ⟨e, hd⟩ => hc (e ▸ hd)).symm

theorem claims_releaseHeld (k : Station) (c : Chan) :
    (s.releaseHeld k c).arbiter.claims = s.arbiter.claims ∧
      (s.releaseHeld k c).arbiter.coolDown = s.arbiter.coolDown ∧
        ∀ j, ((s.releaseHeld k c).link j).session = (s.link j).session := by
  unfold State.releaseHeld
  split
  · rw [arbiter_releaseChan]
    exact ⟨rfl, rfl, session_releaseChan c⟩
  · exact ⟨rfl, rfl, fun _ => rfl⟩

theorem foldl_releaseHeld (cs : List Chan) :
    ∀ s : State, let t := cs.foldl (fun t c => t.releaseHeld k c) s
      (∀ d, t.holder d = if d ∈ cs ∧ s.holder d = some k then none else s.holder d) ∧
        t.arbiter.claims = s.arbiter.claims ∧ t.arbiter.coolDown = s.arbiter.coolDown ∧
        ∀ j, (t.link j).session = (s.link j).session := by
  induction cs with
  | nil => exact fun s => ⟨fun d => by simp, rfl, rfl, fun _ => rfl⟩
  | cons c rest ih =>
    intro s
    obtain ⟨hh, hc, hd, hl⟩ := ih (s.releaseHeld k c)
    obtain ⟨hc', hd', hl'⟩ := claims_releaseHeld (s := s) k c
    refine ⟨fun d => ?_, hc.trans hc', hd.trans hd', fun j => (hl j).trans (hl' j)⟩
    rw [List.foldl_cons, hh, holder_releaseHeld]
    by_cases e : d = c <;> by_cases hk : s.holder d = some k <;> simp [e, hk]

/-- The release of a station's claims: what it leaves of the arbiter and of the links (R156). -/
theorem releaseStation_leaves (k : Station) :
    (∀ d, (s.releaseStation k).holder d = if s.holder d = some k then none else s.holder d) ∧
      (s.releaseStation k).pendingClaim k = none ∧
      (∀ j, j ≠ k → (s.releaseStation k).pendingClaim j = s.pendingClaim j) ∧
      (s.releaseStation k).arbiter.coolDown = s.arbiter.coolDown ∧
      ∀ j, ((s.releaseStation k).link j).session = (s.link j).session := by
  obtain ⟨hh, hc, hd, hl⟩ := foldl_releaseHeld (k := k) allChans s
  have hheld : ∀ d, (allChans.foldl (fun t c => t.releaseHeld k c) s).holder d =
      if s.holder d = some k then none else s.holder d := fun d => by
    rw [hh d]
    simp only [mem_allChans, true_and]
  have hclaim : ∀ j, (allChans.foldl (fun t c => t.releaseHeld k c) s).pendingClaim j = s.pendingClaim j :=
    fun j => congrArg (·.get j) hc
  have heq : s.releaseStation k = match (allChans.foldl (fun t c => t.releaseHeld k c) s).pendingClaim k with
    | some p => ((allChans.foldl (fun t c => t.releaseHeld k c) s).setPendingClaim k none).answerClaim k p.channel .timeout
    | none => allChans.foldl (fun t c => t.releaseHeld k c) s := rfl
  generalize allChans.foldl (fun t c => t.releaseHeld k c) s = v at *
  cases hp : v.pendingClaim k with
  | none =>
    rw [hp] at heq
    rw [heq]
    exact ⟨hheld, hp, fun j _ => hclaim j, hd, hl⟩
  | some p =>
    rw [hp] at heq
    rw [heq]
    refine ⟨hheld, vmod_get_same .., fun j hj => ?_, hd, fun j => ?_⟩
    · exact (pendingClaim_setPendingClaim (s := v) k j none).trans ((if_neg hj).trans (hclaim j))
    · refine (congrArg Link.session (link_modLink (s := v.setPendingClaim k none) k j _)).trans ?_
      split
      · exact hl j
      · exact hl j

/-! ### Loss and grace -/

theorem inEvent_arbiter (f : State → State) : (s.inEvent f).arbiter = (f s.atEvent).arbiter := rfl
theorem holder_inEvent (f : State → State) (c : Chan) : (s.inEvent f).holder c = (f s.atEvent).holder c := rfl
theorem pendingClaim_inEvent (f : State → State) (j : Station) :
    (s.inEvent f).pendingClaim j = (f s.atEvent).pendingClaim j := rfl
theorem link_inEvent (f : State → State) (j : Station) : (s.inEvent f).link j = (f s.atEvent).link j := rfl

/-- A link as it enters LOST (R163). -/
abbrev Link.lost (l : Link) : Link :=
  { l with state := .lost, lossCount := 8, graceCount := 0
           counts := { l.counts with lossEntries := min (l.counts.lossEntries + 1) 4294967295 } }

theorem loseLink_up (hs : (s.link k).state = .up) (hl : (s.link k).lossCount = 7) :
    s.loseLink k = (s.modLink k Link.lost).pauseStation k := by
  have hcond : (decide ((s.link k).state = .up) && decide (lossLimit ≤ (s.link k).lossCount + 1)) = true := by
    rw [hs, hl]
    rfl
  exact if_pos hcond

/-- The grace of a link as its expiry ends it (R164). -/
def State.graceEnded (s : State) (k : Station) : State :=
  (((s.releaseStation k).graceMarkOut k).enterSession k .down).modLinkCounts k fun n =>
    { n with graceExpiries := min (n.graceExpiries + 1) 4294967295 }

theorem expireGrace_lost (hs : (s.link k).state = .lost) (hg : (s.link k).graceCount = 299) :
    s.expireGrace k = s.graceEnded k := by
  have hcond : (decide ((s.link k).state = .lost) && decide (graceLimit ≤ (s.link k).graceCount + 1)) = true := by
    rw [hs, hg]
    rfl
  exact if_pos hcond

/-- A link that enters DOWN or OFF takes its session values and that state (R165). -/
theorem link_enterSession_same (k : Station) (x : LinkState) :
    (s.enterSession k x).link k = { (s.link k).session with state := x } := by
  have hlink := Frame.link (frame_settleLevers (m := [.channels, .pages]) (by decide) (by decide) s
    (Frame.refl _ (s.modLink k fun l => { l.session with state := x }))) (by decide) (by decide) k
  rw [State.enterSession, hlink, link_modLink, if_pos rfl]

theorem arbiter_enterSession (k : Station) (x : LinkState) : (s.enterSession k x).arbiter = s.arbiter :=
  Frame.arbiter (frame_enterSession (m := [.linkStates, .channels, .pages, .links]) (by decide) (by decide) (by decide)
    (by decide) k x (Frame.refl _ s)) (by decide) (by decide)

theorem frame_graceMarkOut_only (k : Station) : Frame [.pages, .clips] s (s.graceMarkOut k) :=
  frame_graceMarkOut (by decide) (by decide) k (Frame.refl _ s)

theorem arbiter_graceEnded : (s.graceEnded k).arbiter = (s.releaseStation k).arbiter := by
  rw [State.graceEnded, modLinkCounts_arbiter, arbiter_enterSession]
  exact Frame.arbiter (frame_graceMarkOut_only k) (by decide) (by decide)

theorem arbiter_leaves_graceEnded :
    (∀ c, (s.graceEnded k).holder c = if s.holder c = some k then none else s.holder c) ∧
      (s.graceEnded k).pendingClaim k = none ∧
      (∀ j, j ≠ k → (s.graceEnded k).pendingClaim j = s.pendingClaim j) ∧
      (s.graceEnded k).arbiter.coolDown = s.arbiter.coolDown := by
  obtain ⟨hh, hp, hj, hc, -⟩ := releaseStation_leaves (s := s) k
  simp only [State.holder, State.pendingClaim, arbiter_graceEnded] at *
  exact ⟨hh, hp, hj, hc⟩

theorem link_graceEnded : (s.graceEnded k).link k =
    { (s.link k).session with
      state := .down
      counts := { (s.link k).counts with
        graceExpiries := min ((s.link k).counts.graceExpiries + 1) 4294967295 } } := by
  obtain ⟨-, -, -, -, hsession⟩ := releaseStation_leaves (s := s) k
  have hmark := Frame.link (frame_graceMarkOut_only (s := s.releaseStation k) k) (by decide) (by decide) k
  have hdown : (((s.releaseStation k).graceMarkOut k).enterSession k .down).link k =
      { (s.link k).session with state := .down } := by
    rw [link_enterSession_same, hmark, hsession]
  rw [State.graceEnded, State.modLinkCounts, link_modLink_same, hdown, Link.session]

theorem graceMarkOut_closes {clip : Clip} (ho : s.openClip k = some clip) :
    s.graceMarkOut k = (s.closeClip clip (s.timeBase.houseCount - 1)).1 := by
  rw [State.graceMarkOut, ho]
  rfl

/-- Settles O43: the loss with its pauses, the grace expiry with what it leaves of the arbiter and the link, and the marks
of the OPEN clip it closes. -/
theorem lossPausesAndGraceReleases : Obligations.LossPausesAndGraceReleases := by
  refine fun s k hr => ⟨fun hs hl => ?_, fun hs hg => ?_, fun ho => ?_, fun clip ho => ?_⟩
  · refine ⟨(act_released (fun t => t.loseLink k) hr).trans (congrArg _ (loseLink_up hs hl)), fun c h hh hn hf hx => ?_⟩
    exact head_pauseStation (s := s.modLink k Link.lost) hf hh hn hx
  · obtain ⟨hh, hp, hj, hc⟩ := arbiter_leaves_graceEnded (s := s.atEvent) (k := k)
    have hexec : exec (.graceExpiry k) s = .next (s.inEvent fun u => u.graceEnded k) :=
      act_event (f := fun u => u.expireGrace k) (g := fun u => u.graceEnded k) hr
        (expireGrace_lost (s := s.atEvent) hs hg)
    refine ⟨_, hexec, rfl, ?_⟩
    simp only [holder_inEvent, pendingClaim_inEvent, inEvent_arbiter, link_inEvent]
    exact ⟨hh, hp, hj, hc, link_graceEnded (s := s.atEvent)⟩
  · rw [State.graceMarkOut, ho]
  · intro mark closed
    have heq := graceMarkOut_closes ho
    refine ⟨fun hm => ?_, fun hm hp => ?_, fun hm hp => ?_⟩
    · exact heq.trans (congrArg Prod.fst ((closeClip_eq (closeMarks_above hm)).1 (le_refl _)))
    · exact heq.trans (congrArg Prod.fst ((closeClip_eq (closeMarks_swapped hm hp)).2 hm))
    · exact heq.trans (congrArg Prod.fst ((closeClip_eq (closeMarks_pending hm hp)).1 (le_refl _)))

/-! ### Listings (R173) -/

/-- The clips a listing at a cursor still has to walk (R173). -/
abbrev Clip.Wanted (filter : Filter) (k : Station) (cursor : Nat) (clip : Clip) : Prop :=
  cursor ≤ clip.id ∧ matchesFilter filter k clip = true

theorem wanted_iff {filter : Filter} {cursor : Nat} {clip : Clip} :
    (decide (cursor ≤ clip.id) && matchesFilter filter k clip) = true ↔ clip.Wanted filter k cursor := by
  rw [Bool.and_eq_true, decide_eq_true_eq]

theorem matchesFilter_iff {filter : Filter} {clip : Clip} :
    matchesFilter filter k clip = true ↔ (match filter with
      | .all => True
      | .own => clip.owner = k
      | .tag t => t ∈ clip.tags) := by
  cases filter with
  | all => exact ⟨fun _ => trivial, fun _ => rfl⟩
  | own => exact decide_eq_true_iff
  | tag t => exact List.contains_iff_mem

theorem listingStep_end {filter : Filter} {cursor : Nat} (hl : (s.link k).listing = .running filter cursor)
    (hh : (s.link k).listingHold = false) (hn : ∀ clip ∈ s.clips.clips, ¬ clip.Wanted filter k cursor) :
    s.listingStep k = (.endMarker, .stopped) := by
  have hfind : s.clips.clips.find? (fun c => decide (cursor ≤ c.id) && matchesFilter filter k c) = none :=
    List.find?_eq_none.mpr fun clip hc e => hn clip hc (wanted_iff.mp e)
  simp [State.listingStep, hl, hh, hfind]

/-- In a list that ascends by a key, the first match is the match of least key. -/
theorem find?_least {α : Type} {key : α → Nat} {p : α → Bool} {l : List α} (ha : l.Pairwise fun x y => key x < key y)
    {x : α} (hx : x ∈ l) (hp : p x = true) (hl : ∀ y ∈ l, p y = true → key x ≤ key y) : l.find? p = some x := by
  obtain ⟨before, after, rfl⟩ := List.append_of_mem hx
  refine List.find?_eq_some_iff_append.mpr ⟨hp, before, after, rfl, fun y hy => ?_⟩
  rw [Bool.not_eq_true', Bool.eq_false_iff]
  intro hpy
  have hlt : key y < key x := (List.pairwise_append.mp ha).2.2 y hy x List.mem_cons_self
  have hle := hl y (List.mem_append_left _ hy) hpy
  omega

theorem listingStep_record {filter : Filter} {cursor : Nat} {clip : Clip}
    (hl : (s.link k).listing = .running filter cursor) (hh : (s.link k).listingHold = false)
    (ha : s.clips.clips.Pairwise fun c d => c.id < d.id) (hc : clip ∈ s.clips.clips) (hw : clip.Wanted filter k cursor)
    (hleast : ∀ d ∈ s.clips.clips, d.Wanted filter k cursor → clip.id ≤ d.id) :
    s.listingStep k = (.record clip, .running filter (clip.id + 1)) := by
  have hfind : s.clips.clips.find? (fun c => decide (cursor ≤ c.id) && matchesFilter filter k c) = some clip :=
    find?_least (key := Clip.id) ha hc (wanted_iff.mpr hw) fun d hd e => hleast d hd (wanted_iff.mp e)
  simp [State.listingStep, hl, hh, hfind]

/-- Settles O44: the start of a listing, and its walk by ascending id. -/
theorem listingsWalkTheClipTable : Obligations.ListingsWalkTheClipTable := by
  refine fun s stn => ⟨fun h filter => ⟨fun hf => ?_, fun hf => ?_⟩, fun hl => ?_, fun filter cursor hl =>
    ⟨fun hh => ?_, fun hh ha => ?_⟩⟩
  · exact step_answers h (.inl rfl) rfl (if_pos hf)
  · exact step_answers h (.inl rfl) rfl (if_neg hf)
  · simp [State.listingStep, hl]
  · simp [State.listingStep, hl, hh]
  · intro wanted
    have hw : ∀ clip, wanted clip ↔ clip.Wanted filter stn cursor := fun clip =>
      and_congr_right fun _ => matchesFilter_iff.symm
    refine ⟨fun hn => ?_, fun clip hc hclip hleast => ?_⟩
    · exact listingStep_end hl hh fun clip hc => mt (hw clip).mpr (hn clip hc)
    · exact listingStep_record hl hh ha hc ((hw clip).mp hclip) fun d hd e => hleast d hd ((hw d).mpr e)

/-! ### LINK SET -/

theorem linkSetRule_bad {link enable divisor : Byte}
    (hb : 5 ≤ link.toNat ∨ divisor.toNat = 0 ∨ 16 < divisor.toNat ∨ link = 0 ∧ enable = 0) :
    linkSetRule link enable divisor s = (s, .plain .badArgument) := by
  unfold linkSetRule
  cases hk : stationOf? link.toNat with
  | none => rfl
  | some j =>
    dsimp only
    by_cases hd : divisor.toNat < 1 ∨ 16 < divisor.toNat
    · rw [if_pos hd]
    · rw [if_neg hd, if_pos ?_]
      have h5 : ¬ 5 ≤ link.toNat := fun e => by
        rw [stationOf?_eq_none_iff.mpr (by omega)] at hk
        cases hk
      obtain ⟨rfl, he⟩ : link = 0 ∧ enable = 0 := by
        rcases hb with e | e | e | e
        · exact absurd e h5
        · omega
        · omega
        · exact e
      exact ⟨(Option.some.inj hk).symm, he⟩

theorem stationOf?_eq_some {n : Nat} (h : n = k.val) : stationOf? n = some k := by
  subst h
  exact dif_pos k.isLt

/-- LINK SET within its ranges, with the enable and the state it leaves (R161, R180). -/
theorem linkSetRule_taken {link enable divisor : Byte} (hk : link.toNat = k.val) (h1 : 1 ≤ divisor.toNat)
    (h16 : divisor.toNat ≤ 16) (h0 : ¬ (k = 0 ∧ enable = 0)) :
    linkSetRule link enable divisor s =
      ((s.setEnable k (enable != 0)).modLink k fun l => l.setDivisor divisor.toNat,
        .okWith [link, boolByte ((s.setEnable k (enable != 0)).link k).enabled, divisor,
          BitVec.ofNat 8 ((s.setEnable k (enable != 0)).link k).state.code]) := by
  unfold linkSetRule
  rw [stationOf?_eq_some hk]
  dsimp only
  rw [if_neg (by omega), if_neg h0, link_modLink, if_pos rfl]
  rfl

theorem setDivisor_eq (n : Nat) : (fun l : Link => l.setDivisor n) =
    fun l => { l with divisor := n, rxDivisor := if l.rx = [] then n else l.rxDivisor } := by
  funext l
  simp only [Link.setDivisor, List.isEmpty_iff]

theorem exec_linkSet {link enable divisor : Byte} (h : s.hears 0) (hk : link.toNat = k.val) (h1 : 1 ≤ divisor.toNat)
    (h16 : divisor.toNat ≤ 16) (h0 : ¬ (k = 0 ∧ enable = 0)) {enabled state : Byte}
    (ht : (s.counted 0).setEnable k (enable != 0) = t) (he : boolByte (t.link k).enabled = enabled)
    (hs : BitVec.ofNat 8 (t.link k).state.code = state) :
    exec (.linkSet 0 link enable divisor) s =
      .next ((t.modLink k fun l =>
        { l with divisor := divisor.toNat, rxDivisor := if l.rx = [] then divisor.toNat else l.rxDivisor }).answered 0
          .linkSet .ok [link, enabled, divisor, state]) := by
  subst ht he hs
  refine step_answers h (.inr rfl) rfl ((linkSetRule_taken hk h1 h16 h0).trans ?_)
  rw [setDivisor_eq]
  rfl

theorem setEnable_stands {e : Bool} (h : (s.link k).enabled = e) : s.setEnable k e = s := by
  unfold State.setEnable
  rw [h]
  cases e <;> rfl

theorem setEnable_disables (h : (s.link k).enabled = true) : s.setEnable k false = s.disableLink k := by
  unfold State.setEnable
  rw [h]

theorem setEnable_enables (h : (s.link k).enabled = false) :
    s.setEnable k true = (s.enterSession k .down).modLink k fun l => { l with enabled := true } := by
  unfold State.setEnable
  rw [h]

/-- Settles O45: the refusals, and the four cases of the old and the new enable. -/
theorem linkSetEnablesAndDisables : Obligations.LinkSetEnablesAndDisables := by
  intro s link enable divisor h u set
  refine ⟨fun hb => step_answers h (.inr rfl) rfl (linkSetRule_bad hb), fun k hk h1 h16 => ?_⟩
  have hen : ((s.counted 0).link k).enabled = (s.link k).enabled := by
    rw [link_counted]
    split <;> rfl
  have hst : ((s.counted 0).link k).state = (s.link k).state := by
    rw [link_counted]
    split <;> rfl
  have hyes : enable ≠ 0 → (enable != 0) = true := fun e => bne_iff_ne.mpr e
  have hno : enable = 0 → (enable != 0) = false := fun e => by rw [e]; rfl
  have hset := link_setEnable (t := s.counted 0) k k
  refine ⟨fun he hon => ?_, fun h0 he hon => ?_, fun he hoff => ?_, fun h0 he hoff hs => ?_⟩
  · refine exec_linkSet h hk h1 h16 (fun e => he e.2) (by rw [hyes he, setEnable_stands (hen.trans hon)]) ?_ ?_
    · rw [hen, hon]
      rfl
    · rw [hst]
      cases (s.link k).state <;> rfl
  · obtain ⟨hstate, henabled⟩ := hset false
    rw [if_pos rfl, hen, hon, if_neg nofun, if_neg nofun] at hstate
    rw [if_pos rfl] at henabled
    refine exec_linkSet (t := (s.counted 0).disableLink k) h hk h1 h16 (fun e => h0 e.1)
      (by rw [hno he, setEnable_disables (hen.trans hon)]) ?_ ?_
    · rw [← setEnable_disables (hen.trans hon), henabled]
      rfl
    · rw [← setEnable_disables (hen.trans hon), hstate]
      rfl
  · obtain ⟨hstate, henabled⟩ := hset true
    rw [if_pos rfl, hen, hoff, if_neg nofun, if_pos rfl] at hstate
    rw [if_pos rfl] at henabled
    refine exec_linkSet (t := ((s.counted 0).enterSession k .down).modLink k fun l => { l with enabled := true }) h hk h1 h16
      (fun e => he e.2) (by rw [hyes he, setEnable_enables (hen.trans hoff)]) ?_ ?_
    · rw [← setEnable_enables (hen.trans hoff), henabled]
      rfl
    · rw [← setEnable_enables (hen.trans hoff), hstate]
      rfl
  · refine exec_linkSet h hk h1 h16 (fun e => h0 e.1) (by rw [hno he, setEnable_stands (hen.trans hoff)]) ?_ ?_
    · rw [hen, hoff]
      rfl
    · rw [hst, hs]
      rfl

end Sys2Proof.Machine
end

section
/-! PROOFS. Proofs/Reception.lean: the desk frames that are read back as they were sent (R185), and what arriving bytes do to
their link (R161, R162). -/

namespace Sys2Proof.Machine

variable {s : State} {k j : Station} {f : DeskFrame} {rest after : List RxByte} {b : RxByte}

/-! ### The frames that are sent -/

theorem length_cleanBytes (x : List Byte) : (cleanBytes x).length = x.length := List.length_map _

theorem value_cleanBytes (x : List Byte) : (cleanBytes x).map (·.value) = x := by
  rw [cleanBytes, List.map_map]
  exact List.map_id x

theorem any_cleanBytes (x : List Byte) : (cleanBytes x).any (·.framingError) = false := by
  rw [cleanBytes, List.any_map]
  exact List.any_eq_false.mpr fun _ _ => nofun

/-- The bytes of a link frame from the length to the last payload byte (R185). -/
def frameBody (k : Station) (payload : List Byte) : List Byte :=
  BitVec.ofNat 8 (payload.length + 1) :: BitVec.ofNat 8 k.val :: payload

theorem linkFrame_eq (k : Station) (payload : List Byte) :
    linkFrame k payload = startByte :: (frameBody k payload ++ bytes16 (crc16 (frameBody k payload))) := rfl

theorem length_frameBody (k : Station) (payload : List Byte) : (frameBody k payload).length = payload.length + 2 := rfl

/-- A frame sent without an error is whole, and is judged as a whole with the bytes after it left over (R162, R185). -/
theorem judgeFrame_linkFrame {payload : List Byte} (h4 : 4 ≤ payload.length) (h39 : payload.length ≤ 39) :
    judgeFrame j (cleanBytes (linkFrame k payload).tail ++ rest) =
      judgeWhole j (frameBody k payload) (bytes16 (crc16 (frameBody k payload))) rest := by
  have hvalue : (BitVec.ofNat 8 (payload.length + 1)).toNat = payload.length + 1 := by
    rw [BitVec.toNat_ofNat]
    omega
  have hcheck : (bytes16 (crc16 (frameBody k payload))).length = 2 := rfl
  generalize hcrc : bytes16 (crc16 (frameBody k payload)) = check at hcheck
  have hlen : (cleanBytes (frameBody k payload ++ check)).length = payload.length + 4 := by
    rw [length_cleanBytes, List.length_append, length_frameBody, hcheck]
  have htake : (cleanBytes (frameBody k payload ++ check) ++ rest).take (payload.length + 4) =
      cleanBytes (frameBody k payload ++ check) := List.take_left' hlen
  have hdrop : (cleanBytes (frameBody k payload ++ check) ++ rest).drop (payload.length + 4) = rest := List.drop_left' hlen
  have hwhole : payload.length + 4 ≤ (cleanBytes (frameBody k payload ++ check) ++ rest).length := by
    rw [List.length_append, hlen]
    omega
  have hhead : ∃ after, cleanBytes (frameBody k payload ++ check) ++ rest =
      { value := BitVec.ofNat 8 (payload.length + 1), framingError := false } :: after := ⟨_, rfl⟩
  rw [linkFrame_eq, hcrc, List.tail_cons]
  generalize hall : cleanBytes (frameBody k payload ++ check) ++ rest = all at *
  obtain ⟨after, rfl⟩ := hhead
  unfold judgeFrame
  dsimp only
  rw [hvalue, htake, hdrop, any_cleanBytes, if_neg nofun, if_neg (by omega), if_neg (by omega), value_cleanBytes,
    show payload.length + 1 + 3 - 2 = (frameBody k payload).length from rfl, List.take_left, List.drop_left]

theorem control_getLsbD (f : DeskFrame) :
    f.control.getLsbD 0 = f.listingHold ∧ f.control.getLsbD 1 = f.toggle ∧ f.control.getLsbD 2 = f.command.isSome := by
  unfold DeskFrame.control
  cases f.listingHold <;> cases f.toggle <;> cases f.command.isSome <;> decide

/-- The payload of a desk frame that fits, read back (R185). -/
theorem ofPayload_payload (h : f.fits) : DeskFrame.ofPayload f.payload = some f := by
  obtain ⟨h0, h1, h2⟩ := control_getLsbD f
  obtain ⟨lever, jog, keys, hold, toggle, command⟩ := f
  unfold DeskFrame.payload
  cases command with
  | none => simp_all [DeskFrame.ofPayload]
  | some message =>
    obtain ⟨hlo, hhi⟩ := h message rfl
    have hsize : (BitVec.ofNat 8 message.length).toNat = message.length := by
      rw [BitVec.toNat_ofNat]
      omega
    simp only [DeskFrame.ofPayload, List.cons_append, List.nil_append, h0, h1, h2, Option.isSome_some, if_true, hsize,
      List.take_length]
    exact if_pos ⟨hlo, hhi, le_refl _⟩

theorem length_payload (h : f.fits) : 4 ≤ f.payload.length ∧ f.payload.length ≤ 39 := by
  unfold DeskFrame.payload
  cases hc : f.command with
  | none => exact ⟨by simp, by simp⟩
  | some message =>
    obtain ⟨hlo, hhi⟩ := h message hc
    simp only [List.length_append, List.length_cons, List.length_nil]
    omega

theorem station_byte_eq_iff : BitVec.ofNat 8 k.val = BitVec.ofNat 8 j.val ↔ k = j := by
  revert k j
  decide

/-- A desk frame that fits, judged on a link (R162, R185). -/
theorem judgeFrame_deskFrame (h : f.fits) :
    judgeFrame j (cleanBytes (f.bytes k).tail ++ rest) = if j = k then .accepted f rest else .rejected .station := by
  obtain ⟨h4, h39⟩ := length_payload h
  rw [DeskFrame.bytes, judgeFrame_linkFrame h4 h39, judgeWhole]
  rw [show (frameBody k f.payload).drop 2 = f.payload from rfl, ofPayload_payload h]
  dsimp only
  rw [if_neg fun e => e rfl, show (frameBody k f.payload)[1]? = some (BitVec.ofNat 8 k.val) from rfl]
  simp only [ne_eq, Option.some_inj, station_byte_eq_iff]
  by_cases e : j = k
  · rw [if_pos e, if_neg fun x => x e.symm]
  · rw [if_neg e, if_pos fun x => e x.symm]

/-- Settles O58. -/
theorem deskFramesReadBack : Obligations.DeskFramesReadBack := fun _ _ _ _ h =>
  ⟨rfl, (judgeFrame_deskFrame h).trans (if_pos rfl), fun hne => (judgeFrame_deskFrame h).trans (if_neg hne)⟩

/-! ### The bytes that arrive -/

section
variable {gap : Bool} {moment : Nat} {order : List Reaction} {fuel : Nat} {bytes : List RxByte}

theorem fromStart_of_begins (h : beginsFrame b = true) : fromStart (b :: after) = b :: after := by
  rw [fromStart, List.dropWhile_cons, h]
  rfl

theorem fromStart_of_none (h : ∀ x ∈ bytes, beginsFrame x = false) : fromStart bytes = [] :=
  List.dropWhile_eq_nil_iff.mpr fun x hx => by rw [h x hx]; rfl

theorem receive_off (h : (s.link k).state = .off) : State.receive k gap moment order (fuel + 1) bytes s = s := if_pos h

/-- Bytes that begin no frame are passed over (R162). -/
theorem receive_none (h : (s.link k).state ≠ .off) (hb : ∀ x ∈ bytes, beginsFrame x = false) :
    State.receive k gap moment order (fuel + 1) bytes s = s.modLink k Link.clearRx := by
  rw [State.receive, if_neg h, fromStart_of_none hb]

theorem receive_rejected {fault : FrameFault} (h : (s.link k).state ≠ .off) (hb : beginsFrame b = true)
    (hj : judgeFrame k after = .rejected fault) :
    State.receive k gap moment order (fuel + 1) (b :: after) s =
      State.receive k gap moment order fuel after (s.rejectFrame k fault) := by
  rw [State.receive, if_neg h, fromStart_of_begins hb]
  dsimp only
  rw [hj]

theorem receive_gap (h : (s.link k).state ≠ .off) (hb : beginsFrame b = true) (hj : judgeFrame k after = .incomplete) :
    State.receive k true moment order (fuel + 1) (b :: after) s =
      State.receive k true moment order fuel after (s.rejectFrame k .format) := by
  rw [State.receive, if_neg h, fromStart_of_begins hb]
  dsimp only
  rw [hj]
  rfl

theorem receive_accepted (h : (s.link k).state ≠ .off) (hb : beginsFrame b = true)
    (hj : judgeFrame k after = .accepted f rest) :
    State.receive k gap moment order (fuel + 1) (b :: after) s =
      State.receive k gap moment order fuel rest
        ((s.modLink k Link.clearRx).inEvent fun u => u.acceptFrame k moment order f) := by
  rw [State.receive, if_neg h, fromStart_of_begins hb]
  dsimp only
  rw [hj]

/-- A rejected frame with no start byte after it is only counted (R162). -/
theorem receive_after_reject {fault : FrameFault} (h : (s.link k).state ≠ .off)
    (hb : ∀ x ∈ bytes, beginsFrame x = false) :
    State.receive k gap moment order (fuel + 1) bytes (s.rejectFrame k fault) =
      (s.countFault k fault).modLink k Link.clearRx := by
  have hstate : ((s.rejectFrame k fault).link k).state = (s.link k).state := by
    rw [State.rejectFrame, link_modLink_same, State.countFault, State.modLinkCounts, link_modLink_same]
    rfl
  rw [receive_none (by rw [hstate]; exact h) hb, State.rejectFrame, modLink_modLink]
  rfl

theorem exec_deskFrame (hr : s.resetHeld = false) :
    exec (.deskFrame k bytes moment order) s =
      .next (State.receive k false moment order (((s.link k).rx ++ bytes).length + 1) ((s.link k).rx ++ bytes) s) :=
  act_released (fun t => t.receiveBytes k false moment order bytes) hr

theorem exec_interbyteTimeout (hr : s.resetHeld = false) :
    exec (.interbyteTimeout k moment order) s =
      .next (if (s.link k).rx.isEmpty then s
        else State.receive k true moment order (((s.link k).rx ++ []).length + 1) ((s.link k).rx ++ []) s) :=
  act_released (fun t => if (t.link k).rx.isEmpty then t else t.receiveBytes k true moment order []) hr

/-- What follows the last frame of the bytes that arrived: the link waits for a start byte, where it is not in OFF. -/
theorem receive_nil : State.receive k gap moment order (fuel + 1) [] s =
    if (s.link k).state = .off then s else s.modLink k Link.clearRx := by
  split
  · next h => exact receive_off h
  · next h => exact receive_none h nofun

theorem receive_deskFrame (hs : (s.link k).state ≠ .off) (h : f.fits) :
    State.receive k false moment order ((cleanBytes (f.bytes k)).length + 1) (cleanBytes (f.bytes k)) s =
      State.receive k false moment order (cleanBytes (f.bytes k)).length []
        ((s.modLink k Link.clearRx).inEvent fun u => u.acceptFrame k moment order f) := by
  have hjudge : judgeFrame k (cleanBytes (f.bytes k).tail) = .accepted f [] := by
    rw [← List.append_nil (cleanBytes _), judgeFrame_deskFrame h, if_pos rfl]
  exact receive_accepted (b := { value := startByte, framingError := false }) hs (by decide) hjudge

end

/-- Settles O46: the bytes of a link in OFF, the silent gap, the frame accepted, and the frames rejected. -/
theorem framesAreAcceptedOrOnlyCounted : Obligations.FramesAreAcceptedOrOnlyCounted := by
  intro s k moment order hr ready
  refine ⟨fun ho bytes => ?_, fun hx => ?_, fun hs => ⟨fun f hf hx => ?_, fun b after fault hx hb hn hj => ?_,
    fun b after hx hb hn hj => ?_⟩⟩
  · exact (exec_deskFrame hr).trans (congrArg _ (receive_off ho))
  · rw [exec_interbyteTimeout hr, hx]
    rfl
  · rw [exec_deskFrame hr, hx, List.nil_append, receive_deskFrame hs hf]
    exact congrArg _ receive_nil
  · rw [exec_deskFrame hr, hx, List.nil_append, List.length_cons, receive_rejected hs hb hj, receive_after_reject hs hn]
    rfl
  · rw [exec_interbyteTimeout hr, hx, List.append_nil, List.length_cons, receive_gap hs hb hj, receive_after_reject hs hn]
    rfl

end Sys2Proof.Machine
end

section
/-! PROOFS. Proofs/Messages.lean: the command messages of chapter 11.3, written and read back (R187). -/

namespace Sys2Proof.Machine

/-! ### Bits and groups of bits -/

/-- The value of the first `n` bits of a sequence, most significant first. -/
def bitsValue (b : Nat → Bool) : Nat → Nat
  | 0 => 0
  | n + 1 => 2 * bitsValue b n + (b n).toNat

theorem foldl_bits (b : Nat → Bool) (n : Nat) :
    (List.range n).foldl (fun acc i => 2 * acc + (b i).toNat) 0 = bitsValue b n := by
  induction n with
  | zero => rfl
  | succ n ih => rw [List.range_succ, List.foldl_append, ih]; rfl

theorem testBit_bitsValue (b : Nat → Bool) (n i : Nat) (h : i < n) : (bitsValue b n).testBit (n - 1 - i) = b i := by
  induction n with
  | zero => omega
  | succ n ih =>
    by_cases e : i = n
    · subst e
      rw [show i + 1 - 1 - i = 0 by omega, Nat.testBit_zero, bitsValue]
      cases b i <;> simp
    · rw [show n + 1 - 1 - i = (n - 1 - i) + 1 by omega, Nat.testBit_succ, bitsValue]
      have hdiv : (2 * bitsValue b n + (b n).toNat) / 2 = bitsValue b n := by
        cases b n
        · simp
        · simp only [Bool.toNat_true]; omega
      rw [hdiv]
      exact ih (by omega)

theorem getMsbD_ofBits {n i : Nat} {bits : List Bool} (h : i < n) : (ofBits n bits).getMsbD i = bits.getD i false := by
  rw [ofBits, foldl_bits (fun i => bits.getD i false), BitVec.getMsbD_eq_getLsbD, BitVec.getLsbD_ofNat,
    testBit_bitsValue (fun i => bits.getD i false) n i h]
  simp [h]
  omega

theorem length_bitsOf {n : Nat} (x : BitVec n) : (bitsOf x).length = n := by simp [bitsOf]

theorem getD_bitsOf {n i : Nat} (x : BitVec n) (h : i < n) : (bitsOf x).getD i false = x.getMsbD i := by
  simp [bitsOf, h]

/-- The first bits of a list give the value they were taken from. -/
theorem ofBits_bitsOf {n : Nat} (x : BitVec n) (rest : List Bool) : ofBits n (bitsOf x ++ rest) = x := by
  refine BitVec.eq_of_getMsbD_eq fun i hi => ?_
  rw [getMsbD_ofBits hi, List.getD_append _ _ _ _ (by rw [length_bitsOf]; exact hi), getD_bitsOf x hi]

/-- Two lists of bits that agree once extended by zero bits. -/
def SameBits (a b : List Bool) : Prop := ∀ i, a.getD i false = b.getD i false

theorem ofBits_congr {n : Nat} {a b : List Bool} (h : SameBits a b) : ofBits n a = ofBits n b := by
  have hbits : ∀ i, a.getD i false = b.getD i false := h
  simp only [ofBits, hbits]

theorem SameBits.drop {a b : List Bool} (n : Nat) (h : SameBits a b) : SameBits (a.drop n) (b.drop n) := fun i => by
  have := h (n + i)
  simpa [List.getD_eq_getElem?_getD] using this

theorem groups_congr {n : Nat} (count : Nat) {a b : List Bool} (h : SameBits a b) : groups n count a = groups n count b := by
  induction count generalizing a b with
  | zero => rfl
  | succ count ih => rw [groups, groups, ofBits_congr h, ih (h.drop n)]

/-- The groups that packed values fall into are the values. -/
theorem groups_flatMap_bitsOf {n : Nat} (xs : List (BitVec n)) : groups n xs.length (xs.flatMap bitsOf) = xs := by
  induction xs with
  | nil => rfl
  | cons x xs ih =>
    rw [List.flatMap_cons, List.length_cons, groups, ofBits_bitsOf, List.drop_left' (length_bitsOf x), ih]

theorem length_groups {n : Nat} (count : Nat) (bits : List Bool) : (groups n count bits).length = count := by
  induction count generalizing bits with
  | zero => rfl
  | succ count ih => rw [groups, List.length_cons, ih]

/-- Groups that hold all the bits, unpacked: the bits, extended by zero bits. -/
theorem sameBits_groups {n : Nat} (count : Nat) {bits : List Bool} (h : bits.length ≤ count * n) :
    SameBits ((groups n count bits).flatMap bitsOf) bits := by
  induction count generalizing bits with
  | zero =>
    rw [Nat.zero_mul, Nat.le_zero, List.length_eq_zero_iff] at h
    subst h
    exact fun _ => rfl
  | succ count ih =>
    intro i
    rw [groups, List.flatMap_cons]
    by_cases hi : i < n
    · rw [List.getD_append _ _ _ _ (by rw [length_bitsOf]; exact hi), getD_bitsOf _ hi, getMsbD_ofBits hi]
    · have hrest := ih (bits := bits.drop n) (by rw [List.length_drop]; rw [Nat.succ_mul] at h; omega) (i - n)
      rw [List.getD_append_right _ _ _ _ (by rw [length_bitsOf]; omega), length_bitsOf, hrest]
      simp [List.getD_eq_getElem?_getD, show n + (i - n) = i by omega]

/-! ### Labels -/

theorem length_packText (text : List (BitVec 7)) : (packText text).length = textBytes text.length := length_groups ..

theorem length_flatMap_bitsOf {n : Nat} (xs : List (BitVec n)) : (xs.flatMap bitsOf).length = xs.length * n := by
  induction xs with
  | nil => simp
  | cons x xs ih => rw [List.flatMap_cons, List.length_append, ih, length_bitsOf, List.length_cons, Nat.succ_mul]; omega

/-- A text packed and unpacked (R187). -/
theorem unpackText_packText (text : List (BitVec 7)) : unpackText text.length (packText text) = text := by
  have hfit : (text.flatMap bitsOf).length ≤ textBytes text.length * 8 := by
    rw [length_flatMap_bitsOf, textBytes]
    omega
  rw [unpackText, packText, groups_congr _ (sameBits_groups _ hfit), groups_flatMap_bitsOf]

/-! ### Fields -/

theorem append_bytes16 (x : BitVec 16) : x.extractLsb' 8 8 ++ x.extractLsb' 0 8 = x := by
  refine BitVec.eq_of_getLsbD_eq fun i hi => ?_
  rw [BitVec.getLsbD_append, BitVec.getLsbD_extractLsb', BitVec.getLsbD_extractLsb']
  by_cases h : i < 8
  · simp [h]
  · simp [h, show i - 8 < 8 by omega, show 8 + (i - 8) = i by omega]

theorem append_bytes32 (x : BitVec 32) :
    x.extractLsb' 24 8 ++ x.extractLsb' 16 8 ++ x.extractLsb' 8 8 ++ x.extractLsb' 0 8 = x := by
  refine BitVec.eq_of_getLsbD_eq fun i hi => ?_
  simp only [BitVec.getLsbD_append, BitVec.getLsbD_extractLsb']
  by_cases h : i < 8
  · simp [h]
  by_cases h1 : i - 8 < 8
  · simp [h, h1, show 8 + (i - 8) = i by omega]
  by_cases h2 : i - 8 - 8 < 8
  · simp [h, h1, h2, show 16 + (i - 8 - 8) = i by omega]
  · simp [h, h1, h2, show i - 8 - 8 - 8 < 8 by omega, show 24 + (i - 8 - 8 - 8) = i by omega]

theorem decodePace_encodePace (pace : Pace) :
    ∃ m hi lo, encodePace pace = [m, hi, lo] ∧ decodePace m hi lo = some pace := by
  cases pace with
  | none => exact ⟨0, 0, 0, rfl, rfl⟩
  | speed v => exact ⟨1, _, _, rfl, by simp [decodePace, append_bytes16]⟩
  | duration d => exact ⟨2, _, _, rfl, by simp [decodePace, append_bytes16]⟩

theorem decodeFilter_encodeFilter (filter : Filter) :
    ∃ f t, encodeFilter filter = [f, t] ∧ decodeFilter f t = some filter := by
  cases filter with
  | all => exact ⟨0, 0, rfl, rfl⟩
  | own => exact ⟨1, 0, rfl, rfl⟩
  | tag t => exact ⟨2, t, rfl, rfl⟩

theorem words_bytes16 (points : List (BitVec 16)) : words (points.flatMap bytes16) = points := by
  induction points with
  | nil => rfl
  | cons x xs ih =>
    rw [List.flatMap_cons, bytes16, List.cons_append, List.cons_append, List.nil_append, words, ih, append_bytes16]

theorem length_bytes16 (points : List (BitVec 16)) : (points.flatMap bytes16).length = 2 * points.length := by
  induction points with
  | nil => rfl
  | cons x xs ih => rw [List.flatMap_cons, List.length_append, ih, List.length_cons, bytes16]; simp; omega

theorem getLsbD_encodeOption (clear part : Bool) :
    (encodeOption clear part).getLsbD 0 = clear ∧ (encodeOption clear part).getLsbD 1 = part := by
  cases clear <;> cases part <;> decide

theorem ofCode?_code (kind : CommandKind) : CommandKind.ofCode? kind.code = some kind := by
  cases kind <;> decide

/-! ### Messages -/

/-- The arguments of a command row, of the number their kind takes, spell the row again (11.3). -/
abbrev ReadsBack (i : Instr) (stn : Station) (kind : CommandKind) (args : List Byte) : Prop :=
  args.length + 1 ≤ 28 ∧ ∃ moment order, decodeMessage stn moment order kind args = .row i

theorem label_readsBack (stn : Station) (id serial : BitVec 16) {text : List (BitVec 7)} (h : text.length ≤ 25) :
    ReadsBack (.label stn id serial text) stn .label
      (bytes16 id ++ bytes16 serial ++ BitVec.ofNat 8 text.length :: packText text) := by
  have hcount : (BitVec.ofNat 8 text.length).toNat = text.length := by
    rw [BitVec.toNat_ofNat]
    omega
  have hdecode : ∀ i1 i0 s1 s0 count bytes, decodeMessage stn 0 [] .label (i1 :: i0 :: s1 :: s0 :: count :: bytes) =
      if bytes.length = textBytes count.toNat then
        .row (.label stn (i1 ++ i0) (s1 ++ s0) (unpackText count.toNat bytes))
      else .unfit := fun _ _ _ _ _ _ => rfl
  refine ⟨?_, 0, [], (hdecode ..).trans ?_⟩
  · simp only [bytes16, List.length_append, List.length_cons, List.length_nil, length_packText, textBytes]
    omega
  · rw [hcount, if_pos (length_packText text), append_bytes16, append_bytes16, unpackText_packText]

theorem gang_readsBack (stn : Station) (leader : Byte) {followers : List Byte}
    (h : 1 ≤ followers.length ∧ followers.length ≤ 3) :
    ReadsBack (.gang stn leader followers) stn .gang (leader :: followers) := by
  refine ⟨by rw [List.length_cons]; omega, 0, [], ?_⟩
  match followers with
  | [_] => rfl
  | [_, _] => rfl
  | [_, _, _] => rfl
  | [] => exact absurd h.1 (by decide)
  | _ :: _ :: _ :: _ :: _ =>
    simp only [List.length_cons] at h
    omega

theorem curveSet_readsBack (stn : Station) {points : List (BitVec 16)} (h : points.length = 11) :
    ReadsBack (.curveSet stn points) stn .curveSet (points.flatMap bytes16) := by
  have hlength : (points.flatMap bytes16).length = 22 := by rw [length_bytes16, h]
  have hdecode : ∀ bytes, decodeMessage stn 0 [] .curveSet bytes =
      if bytes.length = 22 then .row (.curveSet stn (words bytes)) else .unfit := fun _ => rfl
  exact ⟨by omega, 0, [], (hdecode _).trans (by rw [if_pos hlength, words_bytes16])⟩

theorem stats_readsBack {stn : Station} {block index : Byte} {row : Bool → Bool → Instr} (clear part : Bool)
    (h : ∀ option : Byte, decodeStats stn block index option = .row (row (option.getLsbD 0) (option.getLsbD 1))) :
    ReadsBack (row clear part) stn .stats [block, index, encodeOption clear part] := by
  obtain ⟨hc, hp⟩ := getLsbD_encodeOption clear part
  refine ⟨by simp, 0, [], (h _).trans ?_⟩
  rw [hc, hp]

/-- A command on a named clip: its id and serial, and what follows them. -/
theorem named_readsBack {stn : Station} {kind : CommandKind} {rest : List Byte} {row : BitVec 16 → BitVec 16 → Instr}
    (id serial : BitVec 16) (hl : rest.length ≤ 1)
    (hd : ∀ i1 i0 s1 s0, decodeMessage stn 0 [] kind (i1 :: i0 :: s1 :: s0 :: rest) = .row (row (i1 ++ i0) (s1 ++ s0))) :
    ReadsBack (row id serial) stn kind (bytes16 id ++ bytes16 serial ++ rest) := by
  refine ⟨?_, 0, [], (hd ..).trans ?_⟩
  · simp only [bytes16, List.length_append, List.length_cons, List.length_nil]
    omega
  · rw [append_bytes16, append_bytes16]

/-- A command that ends with a speed mode. -/
theorem paced_readsBack {stn : Station} {kind : CommandKind} {front : List Byte} {row : Pace → Instr} (pace : Pace)
    (hl : front.length ≤ 24)
    (hd : ∀ m hi lo, decodeMessage stn 0 [] kind (front ++ [m, hi, lo]) = .ofOption ((decodePace m hi lo).map row)) :
    ReadsBack (row pace) stn kind (front ++ encodePace pace) := by
  obtain ⟨m, hi, lo, he, hp⟩ := decodePace_encodePace pace
  refine ⟨?_, 0, [], ?_⟩
  · rw [he, List.length_append, List.length_cons, List.length_cons, List.length_cons, List.length_nil]
    omega
  · rw [he, hd, hp]
    rfl

/-- A command that names a clip and ends with a speed mode: LOAD CLIP and CUE ADD. -/
theorem namedPaced_readsBack {stn : Station} {kind : CommandKind} {row : BitVec 16 → BitVec 16 → Pace → Instr} (c a : Byte)
    (id serial : BitVec 16) (pace : Pace)
    (hd : ∀ i1 i0 s1 s0 m hi lo, decodeMessage stn 0 [] kind [c, i1, i0, s1, s0, a, m, hi, lo] =
      .ofOption ((decodePace m hi lo).map (row (i1 ++ i0) (s1 ++ s0)))) :
    ReadsBack (row id serial pace) stn kind (c :: (bytes16 id ++ bytes16 serial ++ a :: encodePace pace)) := by
  refine paced_readsBack (front := c :: (bytes16 id ++ bytes16 serial ++ [a])) (row := row id serial) pace
    (by simp [bytes16]) fun m hi lo => (hd ..).trans ?_
  rw [append_bytes16, append_bytes16]

theorem readsBack {i : Instr} {stn : Station} {kind : CommandKind} {args : List Byte} (hw : i.wf = true)
    (hs : i.sender = some stn) (he : encodeMessage i = some (kind, args)) : ReadsBack i stn kind args := by
  cases i
  case protect | unprotect | delete =>
    cases hs; cases he
    exact named_readsBack (rest := []) _ _ (by simp) fun _ _ _ _ => rfl
  case tagAdd k id serial tag =>
    cases hs; cases he
    exact named_readsBack (row := fun id serial => .tagAdd stn id serial tag) _ _ (by simp) fun _ _ _ _ => rfl
  case tagRemove k id serial tag =>
    cases hs; cases he
    exact named_readsBack (row := fun id serial => .tagRemove stn id serial tag) _ _ (by simp) fun _ _ _ _ => rfl
  case hero k id serial angle =>
    cases hs; cases he
    exact named_readsBack (row := fun id serial => .hero stn id serial angle) _ _ (by simp) fun _ _ _ _ => rfl
  case label k id serial text =>
    cases hs; cases he
    exact label_readsBack stn id serial (of_decide_eq_true hw)
  case gang k leader followers =>
    cases hs; cases he
    exact gang_readsBack stn leader (of_decide_eq_true hw)
  case curveSet k points =>
    cases hs; cases he
    exact curveSet_readsBack stn (of_decide_eq_true hw)
  case play k c pace =>
    cases hs; cases he
    exact paced_readsBack (front := [c]) (row := Instr.play stn c) pace (by simp) fun _ _ _ => rfl
  case loadClip k c id serial a pace =>
    cases hs; cases he
    exact namedPaced_readsBack (row := fun id serial => Instr.loadClip stn c id serial a) c a id serial pace
      fun _ _ _ _ _ _ _ => rfl
  case cueAdd k c id serial a pace =>
    cases hs; cases he
    exact namedPaced_readsBack (row := fun id serial => Instr.cueAdd stn c id serial a) c a id serial pace
      fun _ _ _ _ _ _ _ => rfl
  case list k filter =>
    cases hs; cases he
    obtain ⟨f, t, hf, hd⟩ := decodeFilter_encodeFilter filter
    have hdecode : decodeMessage stn 0 [] .list [f, t] = .ofOption ((decodeFilter f t).map (Instr.list stn)) := rfl
    rw [hf]
    exact ⟨by simp, 0, [], hdecode.trans (by rw [hd]; rfl)⟩
  case load k c a h =>
    cases hs; cases he
    exact ⟨by simp [bytes32], 0, [], congrArg (fun x => Message.row (.load stn c a x)) (append_bytes32 h)⟩
  case angleSet k a m q =>
    cases hs; cases he
    exact ⟨by simp [bytes16], 0, [], congrArg (fun x => Message.row (.angleSet stn a m x)) (append_bytes16 q)⟩
  case houseRate k rate moment order =>
    cases hs; cases he
    exact ⟨by simp [bytes16], moment, order,
      congrArg (fun x => Message.row (.houseRate stn x moment order)) (append_bytes16 rate)⟩
  case stationSet k t m p q b =>
    cases hs; cases he
    exact ⟨by simp [bytes16], 0, [], congrArg₂ (fun x y => Message.row (.stationSet stn t m x y b)) (append_bytes16 p)
      (append_bytes16 q)⟩
  case statsTimeBase k index clear part =>
    cases hs; cases he
    exact stats_readsBack (row := .statsTimeBase stn index) clear part fun _ => rfl
  case statsRecorder k index clear part =>
    cases hs; cases he
    exact stats_readsBack (row := .statsRecorder stn index) clear part fun _ => rfl
  case statsPageStore k index clear part =>
    cases hs; cases he
    exact stats_readsBack (row := .statsPageStore stn index) clear part fun _ => rfl
  case statsChannel k index clear part =>
    cases hs; cases he
    exact stats_readsBack (row := .statsChannel stn index) clear part fun _ => rfl
  case statsLink k index clear part =>
    cases hs; cases he
    exact stats_readsBack (row := .statsLink stn index) clear part fun _ => rfl
  all_goals
    cases hs
  all_goals
    cases he
    exact ⟨by simp, 0, [], rfl⟩

/-- Settles O57: each command row by the layout of its kind. -/
theorem messagesReadBack : Obligations.MessagesReadBack := fun _ _ kind _ hw hs he =>
  ⟨ofCode?_code kind, readsBack hw hs he⟩

end Sys2Proof.Machine
end

section
/-! PROOFS. Proofs/Configuration.lean: CURVE SET and STATION SET (R179, R181), and the STATS rows (R182). -/

namespace Sys2Proof.Machine

variable {s : State}

/-! ### The lever curve (R179) -/

theorem isAscending_of_getD {l : List Int} (h : ∀ i, i + 1 < l.length → l.getD i 0 ≤ l.getD (i + 1) 0) :
    isAscending l = true := by
  induction l with
  | nil => rfl
  | cons a rest ih =>
    cases rest with
    | nil => rfl
    | cons b tail =>
      rw [isAscending, Bool.and_eq_true, decide_eq_true_eq]
      exact ⟨h 0 (by simp), ih fun i hi => h (i + 1) (by simpa using hi)⟩

theorem isAscending_iff {l : List Int} : isAscending l = true ↔ ∀ i, i + 1 < l.length → l.getD i 0 ≤ l.getD (i + 1) 0 :=
  ⟨fun h _ hi => isAscending_getD h hi, isAscending_of_getD⟩

/-- The checks of R179 on eleven points. -/
theorem curveFits_iff {points : List Int} (hl : points.length = 11) :
    curveFits points = true ↔
      (∀ i, i < 11 → 0 ≤ points.getD i 0) ∧ points.getD 0 0 = 0 ∧ ∀ i, i < 10 → points.getD i 0 ≤ points.getD (i + 1) 0 := by
  have hall : points.all (fun p => decide (0 ≤ p)) = true ↔ ∀ i, i < 11 → 0 ≤ points.getD i 0 := by
    rw [List.all_eq_true]
    refine ⟨fun h i hi => ?_, fun h p hp => ?_⟩
    · rw [List.getD_eq_getElem _ _ (by omega)]
      exact of_decide_eq_true (h _ (List.getElem_mem _))
    · obtain ⟨i, hi, rfl⟩ := List.getElem_of_mem hp
      have := h i (by omega)
      rw [List.getD_eq_getElem _ _ hi] at this
      exact decide_eq_true this
  have hhead : points.head? = some 0 ↔ points.getD 0 0 = 0 := by
    cases points with
    | nil => simp at hl
    | cons a rest => simp
  rw [curveFits, Bool.and_eq_true, Bool.and_eq_true, hall, decide_eq_true_eq, hhead, isAscending_iff, hl, and_assoc]
  refine and_congr_right fun _ => and_congr_right fun _ => forall_congr' fun i => ?_
  rw [show i + 1 < 11 ↔ i < 10 by omega]

/-- Reading a list of eleven numbers by its indices. -/
theorem toList_ofFn_eleven {α : Type} (g : Nat → α) :
    (Vector.ofFn fun i : Fin 11 => g i.val).toList = (List.range 11).map g := by
  rw [Vector.toList_ofFn, List.ofFn_eq_map, ← List.map_coe_finRange_eq_range, List.map_map]
  rfl

theorem bytes_of_angles (markSet : Byte) : BitVec.ofNat 8 (bitsOfAngles (anglesOfBits markSet)) = markSet := by
  revert markSet
  decide +kernel

theorem getD_toInt (points : List (BitVec 16)) (i : Nat) :
    (points.map (·.toInt)).getD i 0 = (points.getD i 0).toInt := List.getD_map (f := BitVec.toInt) (d := 0) ..

theorem curveTaken_eq (points : List (BitVec 16)) :
    curveTaken (points.map (·.toInt)) = Vector.ofFn fun i : Fin 11 => min 2880 (points.getD i.val 0).toInt.toNat := by
  unfold curveTaken
  simp only [getD_toInt]

theorem exec_curveSet {points : List (BitVec 16)} (h : s.hears 0) (hl : points.length = 11)
    (hf : curveFits (points.map (·.toInt)) = true) :
    exec (.curveSet 0 points) s =
      .next (({ s.counted 0 with curve := curveTaken (points.map (·.toInt)) } : State).answered 0 .curveSet .ok
        ((curveTaken (points.map (·.toInt))).toList.flatMap (beBytes 2))) :=
  step_answers h (.inr rfl) (decide_eq_true hl) (if_pos hf)

theorem exec_stationSet {target markSet blend : Byte} {preroll preset : BitVec 16} {k : Station} (h : s.hears 0)
    (hk : target.toNat = k.val) (h0 : markSet ≠ 0) :
    exec (.stationSet 0 target markSet preroll preset blend) s =
      .next (({ s.counted 0 with settings := vmod s.settings k fun _ => settingsOf markSet preroll preset blend } :
        State).answered 0 .stationSet .ok (settingsData k (settingsOf markSet preroll preset blend))) := by
  refine step_answers h (.inr rfl) rfl ?_
  unfold stationSetRule
  rw [stationOf?_eq_some hk]
  dsimp only
  rw [if_neg h0]
  rfl

theorem settingsData_eq {target markSet blend : Byte} {preroll preset : BitVec 16} {k : Station} (hk : target.toNat = k.val) :
    settingsData k (settingsOf markSet preroll preset blend) =
      [target, markSet, BitVec.ofNat 8 (clampPreroll preroll.toNat / 256), BitVec.ofNat 8 (clampPreroll preroll.toNat)] ++
        [BitVec.ofNat 8 ((limitSpeed preset.toInt % 65536).toNat / 256),
          BitVec.ofNat 8 (limitSpeed preset.toInt % 65536).toNat, if blend = 0 then 0 else 1] := by
  have htarget : BitVec.ofNat 8 k.val = target := by rw [← hk, BitVec.ofNat_toNat, BitVec.setWidth_eq]
  have hblend : boolByte (blend != 0) = if blend = 0 then 0 else 1 := by
    unfold boolByte
    by_cases e : blend = 0 <;> simp [e]
  simp only [settingsData, settingsOf, signedBytes, beBytes_two_nat, bytes_of_angles, htarget, hblend]
  rfl

/-- Settles O54: the eleven points refused or taken, and the five settings refused or taken. -/
theorem curveAndSettingsAreTaken : Obligations.CurveAndSettingsAreTaken := by
  refine fun s h => ⟨fun points hl => ?_, fun target markSet preroll preset blend => ⟨fun hb => ?_, fun k hk h0 => ?_⟩⟩
  · intro c fits
    have hfits : curveFits (points.map (·.toInt)) = true ↔ fits := by
      rw [curveFits_iff (by rw [List.length_map, hl])]
      simp only [getD_toInt]
      rfl
    refine ⟨fun hn => step_answers h (.inr rfl) (decide_eq_true hl) (if_neg (mt hfits.mp hn)), fun hf => ?_⟩
    intro taken
    have htaken : curveTaken (points.map (·.toInt)) = taken := curveTaken_eq points
    refine ⟨?_, ?_⟩
    · rw [← htaken]
      exact curveInRange_curveTaken (hfits.mpr hf) (by rw [List.length_map, hl])
    · rw [exec_curveSet h hl (hfits.mpr hf), htaken, toList_ofFn_eleven fun i => min 2880 (c i).toNat, List.flatMap_map]
      simp only [beBytes_two_nat]
  · refine step_answers h (.inr rfl) rfl ?_
    unfold stationSetRule
    cases hk : stationOf? target.toNat with
    | none => rfl
    | some k =>
      have hm : markSet = 0 := hb.resolve_left fun e => by
        rw [stationOf?_eq_none_iff.mpr (by omega)] at hk
        cases hk
      exact if_pos hm
  · intro angles p v
    rw [exec_stationSet h hk h0, settingsData_eq hk]
    rfl

end Sys2Proof.Machine
end

section
/-! PROOFS. Proofs/Stats.lean: the STATS rows, their layouts and what they clear (R182). -/

namespace Sys2Proof.Machine

variable {s : State}

/-! ### Layouts (11.2) -/

theorem beBytes_four (n : Nat) :
    beBytes 4 n =
      [BitVec.ofNat 8 (n / 16777216), BitVec.ofNat 8 (n / 65536), BitVec.ofNat 8 (n / 256), BitVec.ofNat 8 n] := by
  simp [beBytes, List.range_succ]

theorem countBytes_eq (counts : List Nat) :
    countBytes counts = counts.flatMap fun n =>
      [BitVec.ofNat 8 (n / 16777216), BitVec.ofNat 8 (n / 65536), BitVec.ofNat 8 (n / 256), BitVec.ofNat 8 n] := by
  unfold countBytes
  rw [funext beBytes_four]

theorem presenceByte_eq {α : Type} (x y : Option α) :
    presenceByte x.isSome y.isSome = (match x, y with
      | none, none => 0
      | some _, none => 1
      | none, some _ => 2
      | some _, some _ => 3) := by
  cases x <;> cases y <;> rfl

/-! ### Answers (R182) -/

/-- A STATS from station 0 on a block's rule that reads `data` and may clear. -/
theorem stats_reads {rule : State → State × Reply} {cleared : State} {data : List Byte} {clear : Bool} (h : s.hears 0)
    (hr : rule (s.counted 0) = readCounts data clear cleared (s.counted 0)) :
    act (startStats 0 rule) s = .next ((if clear then cleared else s.counted 0).answered 0 .stats .ok data) :=
  step_answers h (.inr rfl) rfl hr

theorem stats_refused {rule : State → State × Reply} (h : s.hears 0)
    (hr : rule (s.counted 0) = (s.counted 0, .plain .badArgument)) :
    act (startStats 0 rule) s = .next ((s.counted 0).answered 0 .stats .badArgument []) :=
  step_answers h (.inr rfl) rfl hr

/-! ### The rules of the blocks -/

variable {a : Angle} {c : Chan} {k : Station} {index : Byte} {clear part : Bool}

theorem ne_zero_of_angleOf? (ha : angleOf? index.toNat = some a) : index ≠ 0 := fun e => by
  subst e
  cases ha

theorem ne_zero_of_chanOf? (hc : chanOf? index.toNat = some c) : index ≠ 0 := fun e => by
  subst e
  cases hc

theorem statsTimeBaseRule_reads :
    statsTimeBaseRule 0 clear false s =
      readCounts (countBytes [s.timeBase.lossCount, s.timeBase.relockCount, s.timeBase.unqualifiedCount]) clear
        { s with timeBase := { s.timeBase with lossCount := 0, relockCount := 0, unqualifiedCount := 0 } } s := rfl

theorem statsTimeBaseRule_refused (h : part = true ∨ index ≠ 0) :
    statsTimeBaseRule index clear part s = (s, .plain .badArgument) := by
  refine if_pos ?_
  rw [Bool.or_eq_true, bne_iff_ne]
  exact h

theorem statsRecorderRule_wide :
    statsRecorderRule 0 clear false s = readCounts (countBytes [s.unknownAngles]) clear { s with unknownAngles := 0 } s := rfl

theorem statsRecorderRule_angle (ha : angleOf? index.toNat = some a) :
    statsRecorderRule index clear false s =
      readCounts (countBytes (s.recorder a).counts.list) clear (s.modRecCounts a fun _ => .zero) s := by
  rw [statsRecorderRule, if_neg (ne_zero_of_angleOf? ha), ha]
  rfl

theorem statsRecorderRule_part (ha : angleOf? index.toNat = some a) :
    statsRecorderRule index clear true s = (s, .okWith (s.recordData a)) := by
  rw [statsRecorderRule, if_neg (ne_zero_of_angleOf? ha), ha]
  rfl

theorem statsRecorderRule_refused (h : 8 < index.toNat ∨ index = 0 ∧ part = true) :
    statsRecorderRule index clear part s = (s, .plain .badArgument) := by
  rcases h with h | ⟨rfl, rfl⟩
  · have h0 : index ≠ 0 := fun e => by rw [e] at h; exact absurd h (by decide)
    rw [statsRecorderRule, if_neg h0, angleOf?_eq_none_iff.mpr (.inr h)]
  · rfl

theorem statsPageStoreRule_wide :
    statsPageStoreRule 0 clear false s =
      readCounts (countBytes [s.pages.mismatches] ++ beBytes 2 s.pages.pool.length ++ beBytes 2 s.pages.scans.length) clear
        { s with pages := { s.pages with mismatches := 0 } } s := rfl

theorem statsPageStoreRule_angle (ha : angleOf? index.toNat = some a) :
    statsPageStoreRule index clear false s =
      readCounts (countBytes [s.pages.reclaimed.get a, s.pages.starvations.get a] ++ s.listData a) clear
        { s with pages := { s.pages with
            reclaimed := vmod s.pages.reclaimed a fun _ => 0
            starvations := vmod s.pages.starvations a fun _ => 0 } } s := by
  rw [statsPageStoreRule, if_neg nofun, if_neg (ne_zero_of_angleOf? ha), ha]

theorem statsPageStoreRule_refused (h : part = true ∨ 8 < index.toNat) :
    statsPageStoreRule index clear part s = (s, .plain .badArgument) := by
  by_cases hp : part = true
  · exact if_pos hp
  · have h8 := h.resolve_left hp
    have h0 : index ≠ 0 := fun e => by rw [e] at h8; exact absurd h8 (by decide)
    rw [statsPageStoreRule, if_neg hp, if_neg h0, angleOf?_eq_none_iff.mpr (.inr h8)]

theorem statsChannelRule_wide :
    statsChannelRule 0 clear false s =
      readCounts (countBytes [s.unmatchedPartWide]) clear { s with unmatchedPartWide := 0 } s := rfl

theorem statsChannelRule_channel (hc : chanOf? index.toNat = some c) :
    statsChannelRule index clear false s =
      readCounts (countBytes (s.chan c).counts.list ++ s.fetchData c) clear (s.modChanCounts c fun _ => .zero) s := by
  rw [statsChannelRule, if_neg nofun, if_neg (ne_zero_of_chanOf? hc), hc]

theorem statsChannelRule_refused (h : part = true ∨ 4 < index.toNat) :
    statsChannelRule index clear part s = (s, .plain .badArgument) := by
  by_cases hp : part = true
  · exact if_pos hp
  · have h4 := h.resolve_left hp
    have h0 : index ≠ 0 := fun e => by rw [e] at h4; exact absurd h4 (by decide)
    rw [statsChannelRule, if_neg hp, if_neg h0, chanOf?_eq_none_iff.mpr (.inr h4)]

theorem statsLinkRule_link (hk : index.toNat = k.val) :
    statsLinkRule index clear false s =
      readCounts (countBytes (s.link k).counts.list ++ (s.link k).data) clear (s.modLinkCounts k fun _ => .zero) s := by
  simp [statsLinkRule, stationOf?_eq_some hk]

theorem statsLinkRule_refused (h : part = true ∨ 4 < index.toNat) :
    statsLinkRule index clear part s = (s, .plain .badArgument) := by
  by_cases hp : part = true
  · exact if_pos hp
  · simp [statsLinkRule, stationOf?_eq_none_iff.mpr (h.resolve_left hp)]

/-! ### The values read with the counts (11.2) -/

/-- A frame number in five bytes, or the free bytes of an absent one. -/
abbrev fiveBytes (draws place : Nat) (n : Option Nat) : List Byte :=
  match n with
  | some x => beBytes 5 x
  | none => [0, 1, 2, 3, 4].map fun i => Config.unstatedByte (.absentFrame place i) draws

theorem frameBytes_eq (place : Nat) (n : Option Nat) : s.frameBytes place n = fiveBytes s.draws place n := by
  cases n <;> rfl

theorem recordStateByte_eq (x : RecState) :
    BitVec.ofNat 8 x.code = (match x with
      | .stopped => 0
      | .recording => 1
      | .halted => 2 : Byte) := by
  cases x <;> rfl

theorem recordData_eq (a : Angle) :
    s.recordData a =
      [(match (s.recorder a).state with
        | .stopped => 0
        | .recording => 1
        | .halted => 2 : Byte), BitVec.ofNat 8 (s.recorder a).rateMultiple] ++ beBytes 2 (s.recorder a).quota ++
      [(if (s.recorder a).present then 1 else 0 : Byte),
        (match (s.recorder a).newest, (s.recorder a).liveEdge with
          | none, none => 0
          | some _, none => 1
          | none, some _ => 2
          | some _, some _ => 3 : Byte)] ++ fiveBytes s.draws 0 (s.recorder a).newest ++
      fiveBytes s.draws 1 (s.recorder a).liveEdge := by
  simp only [State.recordData, frameBytes_eq, presenceByte_eq, boolByte, recordStateByte_eq]
  cases (s.recorder a).newest <;> cases (s.recorder a).liveEdge <;> rfl

theorem listData_eq (a : Angle) :
    s.listData a = beBytes 2 (s.pageList a).length ++ beBytes 2 (((s.fillingPage a).map (·.number)).getD 65535) ++
      (if s.pageList a = [] then 0 else 1 : Byte) :: fiveBytes s.draws 0 ((s.pageList a).head?.map (·.firstFrame)) := by
  unfold State.listData
  dsimp only
  rw [frameBytes_eq]
  cases s.pageList a <;> rfl

theorem fetchData_eq (c : Chan) :
    s.fetchData c = [BitVec.ofNat 8 (s.chan c).inFlight.length,
      BitVec.ofNat 8 (((s.chan c).inFlight[0]?.map (·.tag)).getD 0),
      BitVec.ofNat 8 (((s.chan c).inFlight[1]?.map (·.tag)).getD 0), BitVec.ofNat 8 (s.chan c).nextTag,
      (match (s.chan c).lastShown with
        | some t => BitVec.ofNat 8 t
        | none => Config.unstatedByte .lastShownTag s.draws),
      BitVec.ofNat 8 ((s.chan c).frameValid.toNat + 2 * (s.chan c).lastShown.isSome.toNat)] := by
  simp only [State.fetchData, bitByte, List.foldr_cons, List.foldr_nil, Nat.mul_zero, Nat.add_zero, State.freeByte] <;>
    rfl

/-- The values of a link with the codes of chapter 11 written out. -/
abbrev linkData (l : Link) : List Byte :=
  [(match l.state with
    | .off => 0
    | .down => 1
    | .up => 2
    | .lost => 3), if l.enabled then 1 else 0, BitVec.ofNat 8 l.divisor,
    (match l.selected with
      | some c => BitVec.ofNat 8 (c.val + 1)
      | none => 0)]

theorem linkData_eq (l : Link) : l.data = linkData l := by
  unfold Link.data linkData boolByte
  cases l.state <;> cases l.selected <;> rfl

/-- Settles O55: the layouts and the clears of the five blocks, and their refusals. -/
theorem statsReadAndClearTheirCounts : Obligations.StatsReadAndClearTheirCounts := by
  intro s index clear h u four five answer refused
  refine ⟨fun h0 => ⟨?_, ?_, ?_, ?_⟩, fun a ha => ⟨?_, ?_, ?_⟩, fun c hc => ?_, fun k hk => ?_, fun h0 => ?_, fun h8 => ⟨?_, ?_, ?_⟩,
    fun h4 => ⟨?_, ?_⟩, ?_, ?_, ?_, ?_, fun h0 => ?_⟩
  · subst h0
    exact stats_reads h (statsTimeBaseRule_reads.trans (by rw [countBytes_eq]; rfl))
  · subst h0
    exact stats_reads h (statsRecorderRule_wide.trans (by rw [countBytes_eq]; rfl))
  · subst h0
    exact stats_reads h (statsPageStoreRule_wide.trans (by rw [countBytes_eq]; rfl))
  · subst h0
    exact stats_reads h (statsChannelRule_wide.trans (by rw [countBytes_eq]; rfl))
  · intro n
    exact stats_reads h ((statsRecorderRule_angle ha).trans (by rw [countBytes_eq]; rfl))
  · intro r
    exact step_answers h (.inr rfl) rfl ((statsRecorderRule_part ha).trans (by
      rw [recordData_eq, show (s.counted 0).recorder a = r from rfl]
      cases r.newest <;> cases r.liveEdge <;> rfl))
  · exact stats_reads h ((statsPageStoreRule_angle ha).trans (by rw [countBytes_eq, listData_eq]; rfl))
  · intro ch n tag
    exact stats_reads h ((statsChannelRule_channel hc).trans (by rw [countBytes_eq, fetchData_eq]; rfl))
  · intro n
    have hlink : ((s.counted 0).link k).data = linkData (s.link k) := by
      rw [link_counted, linkData_eq]
      split <;> rfl
    exact stats_reads h ((statsLinkRule_link hk).trans (by rw [countBytes_eq, hlink]; rfl))
  · exact stats_refused h (statsTimeBaseRule_refused (.inr h0))
  · exact stats_refused h (statsRecorderRule_refused (.inl h8))
  · exact stats_refused h (statsRecorderRule_refused (.inl h8))
  · exact stats_refused h (statsPageStoreRule_refused (.inr h8))
  · exact stats_refused h (statsChannelRule_refused (.inr h4))
  · exact stats_refused h (statsLinkRule_refused (.inr h4))
  · exact stats_refused h (statsTimeBaseRule_refused (.inl rfl))
  · exact stats_refused h (statsPageStoreRule_refused (.inl rfl))
  · exact stats_refused h (statsChannelRule_refused (.inl rfl))
  · exact stats_refused h (statsLinkRule_refused (.inl rfl))
  · exact stats_refused h (statsRecorderRule_refused (.inr ⟨h0, rfl⟩))

end Sys2Proof.Machine
end

section
/-! PROOFS. Proofs/Reports.lean: the report work of a link at a house frame (R159, R171, R172). -/

namespace Sys2Proof.Machine

variable {s : State} {k : Station}

theorem get_lower (timers : AlertTimers) (alert : Alert) : timers.lower.get alert = timers.get alert - 1 := by
  have hmap : ∀ {n : Nat} (v : Vector Nat n) (i : Fin n), (v.map (· - 1)).get i = v.get i - 1 := fun v i => by
    simp [Vector.get_eq_getElem]
  cases alert with
  | keyIgnored => rfl
  | starved | missing | writeFault | absent | readFault | fitLimited | cueSkipped => exact hmap ..

theorem sendReport_off (h : (s.link k).state = .off) : s.sendReport k = s := if_pos h

theorem sendReport_skips (h : (s.link k).state ≠ .off) (ht : (s.link k).tx ≠ none) :
    s.sendReport k = s.modLinkCounts k fun n => { n with reportSkips := min (n.reportSkips + 1) 4294967295 } :=
  (if_neg h).trans (if_pos (Option.isSome_iff_ne_none.mpr ht))

theorem sendReport_sends (h : (s.link k).state ≠ .off) (ht : (s.link k).tx = none) :
    s.sendReport k =
      { (s.modLink k fun l =>
          { l with tx := some { report := s.buildReport k (s.listingStep k).1, divisor := l.divisor }
                   listing := (s.listingStep k).2
                   counts := { l.counts with reportsSent := min (l.counts.reportsSent + 1) 4294967295 } }) with
        draws := s.draws + 1 } :=
  (if_neg h).trans (if_neg (by rw [ht]; exact nofun))

/-- The channels a report summarises (R159, R171). -/
theorem map_channel_summaries (item : ListingItem) :
    (s.buildReport k item).summaries.map (·.channel) =
      [0, 1, 2, 3].filter fun c => s.holder c = some k ∨ k = 0 ∧ s.holder c = none := by
  have hmap : (s.buildReport k item).summaries.map (·.channel) = s.reported k := by
    rw [State.buildReport, List.map_map]
    exact List.map_id _
  rw [hmap, State.reported, allChans]
  refine List.filter_congr fun c _ => ?_
  rw [Bool.decide_or, Bool.decide_and]
  cases s.holder c <;> rfl

theorem summary_of_mem {item : ListingItem} {m : ChannelSummary} (h : m ∈ (s.buildReport k item).summaries) :
    m = s.summary m.channel := by
  obtain ⟨c, -, rfl⟩ := List.mem_map.mp h
  rfl

/-- Settles O52: no report, a report skip, or a report with what R171 lists; then the timers. -/
theorem reportsAreSentOrSkipped : Obligations.ReportsAreSentOrSkipped := by
  refine fun s k => ⟨fun h => ?_, fun h ht => ?_, fun alert => get_lower .., fun h ht => ?_⟩
  · rw [State.reportWork, sendReport_off h]
  · rw [State.reportWork, sendReport_skips h ht]
  · intro r
    refine ⟨?_, rfl, rfl, rfl, rfl, rfl, fun _ => rfl, rfl, rfl, rfl, rfl, rfl, rfl, rfl, map_channel_summaries _, fun m hm => ?_⟩
    · rw [State.reportWork, sendReport_sends h ht]
    · rw [summary_of_mem hm]
      exact ⟨rfl, rfl, rfl, rfl, rfl, rfl⟩

end Sys2Proof.Machine
end

section
/-! PROOFS. Proofs/Levers.lean: what an accepted desk frame does to its link, the engagement of the lever (R91 to R93, R162,
R166, R167), and the jog (R98). -/

namespace Sys2Proof.Machine

variable {s : State} {k : Station} {c : Chan} {h : Playhead} {x n : Int}

/-! ### The link (R162 to R167) -/

theorem mem_actingKeys {l : Link} {held : Byte} {i : Fin 8} :
    i ∈ l.actingKeys held ↔ l.keys.get i = .pressed ∧ held.getLsbD i.val = true := by
  have hall : i ∈ ([0, 1, 2, 3, 4, 5, 6, 7] : List (Fin 8)) := by
    fin_cases i <;> decide
  rw [Link.actingKeys, List.mem_filter, KeyState.acts, Bool.and_eq_true, decide_eq_true_eq]
  exact and_iff_right hall

theorem judge_eq (x : KeyState) (held : Bool) :
    x.judge held = if held = true then (if x = .ready then .pressed else .spent) else .ready := by
  cases held <;> cases x <;> rfl

theorem accept_keys (l : Link) (f : DeskFrame) (i : Fin 8) :
    (l.accept f).keys.get i = if f.keys.getLsbD i.val then (if l.keys.get i = .ready then .pressed else .spent) else .ready :=
  (vector_ofFn_get _ i).trans (judge_eq ..)

/-- The lever value is the median of the three readings (R166). -/
theorem median_spec (x : LeverHistory) :
    x.median ∈ [x.oldest, x.middle, x.newest] ∧
      2 ≤ [x.oldest, x.middle, x.newest].countP (fun r => decide (r ≤ x.median)) ∧
        2 ≤ [x.oldest, x.middle, x.newest].countP fun r => decide (x.median ≤ r) := by
  have hm : x.median = max (min x.oldest x.middle) (min (max x.oldest x.middle) x.newest) := rfl
  generalize x.median = m at hm
  simp only [List.mem_cons, List.not_mem_nil, or_false, List.countP_cons, List.countP_nil, decide_eq_true_eq]
  refine ⟨by omega, ?_, ?_⟩
  all_goals
    split_ifs <;> omega

/-! ### Engagement (R91) -/

theorem judgeLever_out (h : 3 < x.natAbs) (run : Nat) :
    judgeLever false 0 x = (false, 1, .neither) ∧ judgeLever false 1 x = (true, 0, .engages) ∧
      judgeLever true run x = (true, 0, .neither) := by
  simp [judgeLever, h]

theorem judgeLever_rest (h : x.natAbs ≤ 3) (run : Nat) :
    judgeLever false run x = (false, 0, .neither) ∧ judgeLever true 0 x = (true, 1, .neither) ∧
      judgeLever true 1 x = (false, 0, .disengages) := by
  simp [judgeLever, Nat.not_lt.mpr h]

/-! ### The state a steered channel keeps -/

/-- A channel moved to a state that a follower would take over unchanged stands in it, in whatever gang. -/
theorem mode_foldl_followOne {m : Mode} (hm : followMode m = m) (fs : List Chan) :
    ∀ {s : State}, (∃ h, (s.chan c).head = some h ∧ h.mode = m) →
      ∃ h, ((fs.foldl (fun t f => t.followOne c f) s).chan c).head = some h ∧ h.mode = m := by
  induction fs with
  | nil => exact fun hs => hs
  | cons f rest ih =>
    intro s hs
    refine ih (s := s.followOne c f) ?_
    obtain ⟨h, hh, hmode⟩ := hs
    unfold State.followOne
    split
    · next hl hf hleader hfollower =>
      rw [chan_writeHead]
      split
      · have hlm : hl.mode = m := by
          rw [hh] at hleader
          cases hleader
          exact hmode
        refine ⟨_, rfl, ?_⟩
        show followMode hl.mode = m
        rw [hlm, hm]
      · exact ⟨h, hh, hmode⟩
    · exact ⟨h, hh, hmode⟩

theorem mode_steer {g : Playhead → Playhead} {m : Mode} (hh : (s.chan c).head = some h) (hg : (g h).mode = m)
    (hm : followMode m = m) : ∃ h', ((s.steer c g).chan c).head = some h' ∧ h'.mode = m := by
  rw [steer_eq]
  refine mode_foldl_followOne hm _ ⟨g h, ?_, hg⟩
  rw [chan_modHead, if_pos rfl, hh]
  rfl

theorem head_leaveClip (c d : Chan) : ((s.leaveClip c).chan d).head = (s.chan d).head := by
  have hdrop : ∀ (t : State) (id serial : Nat), ((t.dropUse id serial).chan d).head = (t.chan d).head := by
    intro t id serial
    have h : ((t.dropUse id serial).chan d).rest = (t.chan d).rest :=
      frame_dropUse (m := [.pages, .clips]) (by decide) (by decide) id serial (Frame.refl _ t) .channels (by decide) d
    have hhead := congrArg Channel.head h
    exact hhead
  unfold State.leaveClip
  split
  · split
    · rw [hdrop, chan_modChan]
      split
      · next e => subst e; rfl
      · rfl
    · rfl
  · rfl

theorem leaveClip_outside (hh : (s.chan c).head = some h) (hm : ∀ ctx, h.mode ≠ .clip ctx) : s.leaveClip c = s := by
  unfold State.leaveClip
  rw [hh]
  dsimp only
  split
  · next e => exact absurd e (hm _)
  · rfl

/-! ### The lever work (R87, R92, R93) -/

section
variable {speed : Int}

theorem shuttleSpeed_shuttle (hh : (s.chan c).head = some h) (hm : h.mode = .shuttle) :
    s.shuttleSpeed c speed = s.steer c fun h => { h with speed := speed } := by
  simp only [State.shuttleSpeed, hh, hm, if_true]

theorem shuttleSpeed_stands (hh : ∀ h, (s.chan c).head = some h → h.mode ≠ .shuttle) : s.shuttleSpeed c speed = s := by
  unfold State.shuttleSpeed
  split
  · next h e => exact if_neg (hh h e)
  · rfl

/-- A lever target taken into SHUTTLE, and then driven at the lever speed (R92). -/
theorem shuttleSpeed_engaged (hh : (s.chan c).head = some h) :
    (s.steer c fun h => { h with mode := .shuttle, speed := speed }).shuttleSpeed c speed =
      (s.steer c fun h => { h with mode := .shuttle, speed := speed }).steer c fun h => { h with speed := speed } := by
  obtain ⟨h', hh', hm⟩ := mode_steer (g := fun h => { h with mode := .shuttle, speed := speed }) (m := .shuttle) hh rfl rfl
  exact shuttleSpeed_shuttle hh' hm

theorem engage_takes (hh : (s.chan c).head = some h) (hm : h.mode.takesLever = true) :
    s.engage c speed = (s.leaveClip c).steer c fun h => { h with mode := .shuttle, speed := speed } := by
  unfold State.engage
  rw [hh]
  exact if_pos hm

theorem engage_stands (hh : ∀ h, (s.chan c).head = some h → h.mode.takesLever = false) : s.engage c speed = s := by
  unfold State.engage
  cases e : (s.chan c).head with
  | none => rfl
  | some h => exact if_neg (Bool.eq_false_iff.mp (hh h e))

end

/-- The judgement of a frame's lever value on a link (R91). -/
abbrev State.judged (s : State) (k : Station) (x : Int) : Bool × Nat × Engagement :=
  judgeLever (s.link k).engaged (s.link k).confirmRun x

/-- The link as the judgement of its lever leaves it (R91, R93). -/
def State.judgedLink (s : State) (k : Station) (x : Int) : State :=
  s.modLink k fun l =>
    { l with engaged := (s.judged k x).1, confirmRun := (s.judged k x).2.1
             armed := if (s.judged k x).2.2 = .disengages then true else l.armed }

theorem leverWork_none (ht : s.leverTarget k = none) : s.leverWork k x = s.judgedLink k x := by
  unfold State.leverWork
  rw [ht]
  rfl

theorem leverWork_engages (ht : s.leverTarget k = some c) (hj : (s.judged k x).2.2 = .engages) :
    s.leverWork k x =
      (if (s.link k).armed then (s.judgedLink k x).engage c (leverSpeed s.curve x) else s.judgedLink k x).shuttleSpeed c
        (leverSpeed s.curve x) := by
  unfold State.leverWork State.judgedLink
  rw [ht]
  dsimp only
  rw [hj]

theorem leverWork_disengages (ht : s.leverTarget k = some c) (hj : (s.judged k x).2.2 = .disengages) :
    s.leverWork k x = ((s.judgedLink k x).pauseShuttle c).shuttleSpeed c (leverSpeed s.curve x) := by
  unfold State.leverWork State.judgedLink
  rw [ht]
  dsimp only
  rw [hj]

theorem leverWork_neither (ht : s.leverTarget k = some c) (hj : (s.judged k x).2.2 = .neither) :
    s.leverWork k x = (s.judgedLink k x).shuttleSpeed c (leverSpeed s.curve x) := by
  unfold State.leverWork State.judgedLink
  rw [ht]
  dsimp only
  rw [hj]

theorem leverWork_idle (ht : s.leverTarget k = some c) (hh : (s.chan c).head = none) :
    s.leverWork k x = s.judgedLink k x := by
  have hidle : ((s.judgedLink k x).chan c).head = none := hh
  have hspeed : ∀ speed, (s.judgedLink k x).shuttleSpeed c speed = s.judgedLink k x := fun speed =>
    shuttleSpeed_stands fun h e => by rw [hidle] at e; cases e
  have hengage : ∀ speed, (s.judgedLink k x).engage c speed = s.judgedLink k x := fun speed =>
    engage_stands fun h e => by rw [hidle] at e; cases e
  have hpause : (s.judgedLink k x).pauseShuttle c = s.judgedLink k x :=
    pauseShuttle_stands fun h e => by rw [hidle] at e; cases e
  cases hj : (s.judged k x).2.2 with
  | engages => rw [leverWork_engages ht hj, hengage, ite_self, hspeed]
  | disengages => rw [leverWork_disengages ht hj, hpause, hspeed]
  | neither => rw [leverWork_neither ht hj, hspeed]

/-- A lever target that is in SHUTTLE already, or that the frame leaves in its state. -/
theorem leverWork_stays (ht : s.leverTarget k = some c) (hh : (s.chan c).head = some h)
    (hs : (s.judged k x).2.2 = .engages → (s.link k).armed = false ∨ h.mode.takesLever = false)
    (hd : (s.judged k x).2.2 = .disengages → h.mode ≠ .shuttle) :
    s.leverWork k x = (s.judgedLink k x).shuttleSpeed c (leverSpeed s.curve x) := by
  have hhead : ((s.judgedLink k x).chan c).head = some h := hh
  cases hj : (s.judged k x).2.2 with
  | engages =>
    rw [leverWork_engages ht hj]
    rcases hs hj with ha | hm
    · rw [ha, if_neg nofun]
    · rw [engage_stands fun y e => by rw [hhead] at e; cases e; exact hm, ite_self]
  | disengages =>
    rw [leverWork_disengages ht hj, pauseShuttle_stands fun y e => by rw [hhead] at e; cases e; exact .inl (hd hj)]
  | neither => rw [leverWork_neither ht hj]

theorem leverWork_takes (ht : s.leverTarget k = some c) (hj : (s.judged k x).2.2 = .engages)
    (ha : (s.link k).armed = true) (hh : (s.chan c).head = some h) (hm : h.mode.takesLever = true) :
    s.leverWork k x =
      (((s.judgedLink k x).leaveClip c).steer c fun h =>
        { h with mode := .shuttle, speed := leverSpeed s.curve x }).steer c fun h =>
          { h with speed := leverSpeed s.curve x } := by
  have hhead : ((s.judgedLink k x).chan c).head = some h := hh
  have hleft : (((s.judgedLink k x).leaveClip c).chan c).head = some h := (head_leaveClip ..).trans hhead
  rw [leverWork_engages ht hj, ha, if_pos rfl, engage_takes hhead hm, shuttleSpeed_engaged hleft]

theorem leverWork_pauses (ht : s.leverTarget k = some c) (hj : (s.judged k x).2.2 = .disengages)
    (hh : (s.chan c).head = some h) (hm : h.mode = .shuttle) (hf : s.isFollower c = false) :
    s.leverWork k x = (s.judgedLink k x).steer c Playhead.pause := by
  have hhead : ((s.judgedLink k x).chan c).head = some h := hh
  obtain ⟨h', hh', hpaused⟩ := mode_steer (g := Playhead.pause) (m := .paused) hhead rfl rfl
  rw [leverWork_disengages ht hj, pauseShuttle_moves hhead hm hf, shuttleSpeed_stands fun y e => ?_]
  rw [hh'] at e
  cases e
  rw [hpaused]
  exact nofun

/-- Settles O47: the link, the median, the table of engagement, and the moves of the lever target. -/
theorem acceptedFramesJudgeLeverAndKeys : Obligations.AcceptedFramesJudgeLeverAndKeys := by
  refine ⟨fun l f => ⟨rfl, rfl, rfl, rfl, rfl, accept_keys l f, fun i => mem_actingKeys⟩, median_spec,
    fun run x => ⟨fun h => judgeLever_out h run, fun h => judgeLever_rest h run⟩, fun s k x => ?_⟩
  intro judged armed speed set
  have hset : set = s.judgedLink k x := rfl
  refine ⟨leverWork_none, fun c ht => ⟨leverWork_idle ht, fun h hh => ?_⟩⟩
  intro driven shuttled
  have hhead : (set.chan c).head = some h := hh
  have hstays : h.mode ≠ .shuttle → set.shuttleSpeed c speed = set := fun hm =>
    shuttleSpeed_stands fun y e => by rw [hhead] at e; cases e; exact hm
  refine ⟨fun hj ha hm => ?_, fun ctx hj ha hm => ?_, fun hj ha hm => ?_, fun hj hm => ?_, fun hj hm hf => ?_, fun hj hm => ?_,
    fun hj hm => ?_⟩
  · have houtside : ∀ ctx, h.mode ≠ .clip ctx := fun ctx e => by
      rw [e] at hm
      rcases hm with e | e | e <;> cases e
    have htakes : h.mode.takesLever = true := by rcases hm with e | e | e <;> rw [e] <;> rfl
    rw [leverWork_takes ht hj ha hh htakes, ← hset, leaveClip_outside hhead houtside]
  · exact leverWork_takes ht hj ha hh (by rw [hm]; rfl)
  · exact (leverWork_stays ht hh (fun _ => .inl ha) fun _ => hm).trans (hstays hm)
  · exact (leverWork_stays ht hh (fun _ => .inr (by rw [hm]; rfl)) fun e => absurd e hj).trans
      (shuttleSpeed_shuttle hhead hm)
  · exact leverWork_pauses ht hj hh hm hf
  · have hne : (s.judged k x).2.2 ≠ .engages := fun e => by
      rw [show (s.judged k x).2.2 = .disengages from hj] at e
      cases e
    exact (leverWork_stays ht hh (fun e => absurd e hne) fun _ => hm).trans (hstays hm)
  · have hne : ∀ e, e ≠ .neither → (s.judged k x).2.2 ≠ e := fun e he x => he (x.symm.trans hj)
    exact (leverWork_stays ht hh (fun e => absurd e (hne _ nofun)) fun _ => hm).trans (hstays hm)

/-! ### The jog (R87, R98) -/

theorem clampTo_span {pmin pmax : Nat} (hp : pmin ≤ pmax) (y : Int) :
    clampTo (some (pmin, pmax)) y =
      ((max (pmin : Int) (min (pmax : Int) y)).toNat, decide (y < pmin ∨ (pmax : Int) < y)) := by
  rcases lt_or_ge (pmax : Int) y with h1 | h1
  · rw [clampTo_above h1, decide_eq_true (.inr h1)]
    congr 1
    omega
  rcases lt_or_ge y (pmin : Int) with h2 | h2
  · rw [clampTo_below hp h2, decide_eq_true (.inl h2)]
    congr 1
    omega
  · rw [clampTo_within h2 h1, decide_eq_false (by omega)]
    congr 1
    omega

theorem jogWork_target (hn : n ≠ 0) (ht : s.leverTarget k = some c) (hh : (s.chan c).head = some h) :
    s.jogWork k n = if (s.link k).engaged then s else s.jogHead c n := by
  simp only [State.jogWork, if_neg hn, ht, hh, Option.isNone_some, Bool.false_eq_true, if_false]

theorem jogWork_idle (hn : n ≠ 0) (ht : s.leverTarget k = some c) (hh : (s.chan c).head = none) :
    s.jogWork k n = s.keyIgnored k := by
  simp only [State.jogWork, if_neg hn, ht, hh, Option.isNone_none, if_true]

/-- A jog of a channel with a span: it stops, and stands at the wanted frame within the span (R98, R120). -/
theorem jogHead_eq {pmin pmax : Nat} (hh : (s.chan c).head = some h) (hm : h.mode ≠ .follow)
    (hs : s.span h.angle = some (pmin, pmax)) (hp : pmin ≤ pmax) :
    let wanted : Int := (((h.position / s.frameSpan h.angle : Nat) : Int) + n) * s.frameSpan h.angle
    s.jogHead c n =
      s.place c { h with
        mode := (match h.mode with
          | .clip ctx => .clip { ctx with running := false, endReached := false }
          | _ => .paused)
        speed := (match h.mode with
          | .clip ctx => if ctx.running then 0 else h.speed
          | .paused => h.speed
          | _ => 0)
        position := (max (pmin : Int) (min (pmax : Int) wanted)).toNat
        clamp := decide (wanted < pmin ∨ (pmax : Int) < wanted) } := by
  intro wanted
  unfold State.jogHead
  rw [hh]
  dsimp only
  rw [hs, clampTo_span hp]
  obtain ⟨mode, angle, position, speed, clamp, anchor⟩ := h
  cases mode with
  | clip ctx =>
    obtain ⟨id, serial, running, ended, pace⟩ := ctx
    cases running <;> rfl
  | follow => exact absurd rfl hm
  | live | paused | shuttle | play => rfl

/-- Settles O48: the order of an accepted frame, and its jog. -/
theorem deskFramesActInTheirOrder : Obligations.DeskFramesActInTheirOrder := by
  refine ⟨fun s k moment order f => ?_, fun s k n => ?_⟩
  · intro acting heard levered jogged
    have hsorted : ([0, 1, 2, 3, 4, 5, 6, 7] : List (Fin 8)).Pairwise (· < ·) := by decide
    exact ⟨hsorted.filter _, rfl⟩
  · intro ignored
    refine ⟨fun h0 => if_pos h0, fun hn ht => ?_, fun c hn ht => ⟨fun hh => jogWork_idle hn ht hh, fun h hh =>
      ⟨fun he => ?_, fun pmin pmax he hm hs hp => ?_⟩⟩⟩
    · simp only [State.jogWork, if_neg hn, ht]
      rfl
    · rw [jogWork_target hn ht hh, if_pos he]
    · intro fs wanted
      rw [jogWork_target hn ht hh, he, if_neg nofun]
      exact jogHead_eq hh hm hs hp

end Sys2Proof.Machine
end

section
/-! PROOFS. Proofs/Keys.lean: the confirmed keys (R87, R104, R124, R158, R167). -/

namespace Sys2Proof.Machine

variable {s : State} {k : Station} {c : Chan} {h : Playhead}

/-! ### Mark keys (R66 to R70, R81) -/

theorem markKey_acts {r : State × Reply} (h : r.2.result = some .ok) : markKey k r = r.1 := by
  rw [markKey, h]
  rfl

theorem markKey_ignored {r : State × Reply} (h : r.2.result = some .tableFull ∨ r.2.result = some .busy) :
    markKey k r = r.1.keyIgnored k := by
  rcases h with h | h <;> rw [markKey, h] <;> rfl

theorem result_createOpen (hf : s.freeId ≠ none) : (s.createOpen k).2.result = some .ok := by
  unfold State.createOpen
  cases hid : s.freeId with
  | none => exact absurd hid hf
  | some id => rfl

theorem result_createClosing (hf : s.freeId ≠ none) : (s.createClosing k).2.result = some .ok := by
  unfold State.createClosing
  cases hid : s.freeId with
  | none => exact absurd hid hf
  | some id => rfl

theorem result_reMark {clip : Clip} (hp : clip.scansPending = 0) : (s.reMark k clip).2.result = some .ok := by
  unfold State.reMark
  rw [if_neg (by omega)]
  dsimp only
  split_ifs <;> rfl

theorem result_takeMarkIn (hf : s.openClip k = none → s.freeId ≠ none)
    (hp : ∀ clip, s.openClip k = some clip → clip.scansPending = 0) : (s.takeMarkIn k).2.result = some .ok := by
  unfold State.takeMarkIn
  cases ho : s.openClip k with
  | none => exact result_createOpen (hf ho)
  | some clip => exact result_reMark (hp clip ho)

theorem result_takeMarkOut (hf : s.openClip k = none → s.freeId ≠ none) : (s.takeMarkOut k).2.result = some .ok := by
  unfold State.takeMarkOut
  cases ho : s.openClip k with
  | none => exact result_createClosing (hf ho)
  | some clip => rfl

theorem takeMarkIn_full (ho : s.openClip k = none) (hf : s.freeId = none) :
    s.takeMarkIn k = (s, .plain .tableFull) := by
  simp only [State.takeMarkIn, ho, State.createOpen, hf]

theorem takeMarkIn_busy {clip : Clip} (ho : s.openClip k = some clip) (hp : 0 < clip.scansPending) :
    s.takeMarkIn k = (s, .plain .busy) := by
  simp only [State.takeMarkIn, ho, State.reMark, if_pos hp]

theorem takeMarkOut_full (ho : s.openClip k = none) (hf : s.freeId = none) :
    s.takeMarkOut k = (s, .plain .tableFull) := by
  simp only [State.takeMarkOut, ho, State.createClosing, hf]

/-! ### Keys on the lever target (R87) -/

theorem targetKey_none {action : Chan → State → State} (ht : s.leverTarget k = none) :
    s.targetKey k action = s.keyIgnored k := by
  simp only [State.targetKey, ht]

theorem targetKey_idle {action : Chan → State → State} (ht : s.leverTarget k = some c) (hh : (s.chan c).head = none) :
    s.targetKey k action = s.keyIgnored k := by
  simp only [State.targetKey, ht, hh, Option.isNone_none, if_true]

theorem targetKey_acts {action : Chan → State → State} (ht : s.leverTarget k = some c) (hh : (s.chan c).head = some h) :
    s.targetKey k action = action c s := by
  simp only [State.targetKey, ht, hh, Option.isNone_some, Bool.false_eq_true, if_false]

theorem disarm_target (ht : s.leverTarget k = some c) :
    s.disarm k c = if (s.link k).engaged then s.modLink k fun l => { l with armed := false } else s := by
  simp only [State.disarm, ht, decide_true, Bool.and_true]

theorem keyAction_play (s : State) (k : Station) :
    s.keyAction k 2 = s.targetKey k fun c s => (s.disarm k c).play c (s.setting k).playPreset none := rfl

theorem keyAction_pause (s : State) (k : Station) : s.keyAction k 3 = s.targetKey k fun c s => s.pause c := rfl

theorem keyAction_live (s : State) (k : Station) : s.keyAction k 4 = s.targetKey k fun c s => s.goLive c := rfl

/-- The PLAY key on the lever target: the lever is disarmed, and the channel or its clip plays (R93, R99, R119). -/
theorem playKey (ht : s.leverTarget k = some c) (hh : (s.chan c).head = some h) :
    s.keyAction k 2 =
      (if (s.link k).engaged then s.modLink k fun l => { l with armed := false } else s).play c (s.setting k).playPreset
        none := by
  rw [keyAction_play, targetKey_acts ht hh, disarm_target ht]

theorem pauseKey (ht : s.leverTarget k = some c) (hh : (s.chan c).head = some h) : s.keyAction k 3 = s.pause c := by
  rw [keyAction_pause, targetKey_acts ht hh]

theorem liveKey (ht : s.leverTarget k = some c) (hh : (s.chan c).head = some h) : s.keyAction k 4 = s.goLive c := by
  rw [keyAction_live, targetKey_acts ht hh]

/-- PLAY, PAUSE and LIVE without a channel to act on (R87). -/
theorem targetKeys_ignored (hi : s.leverTarget k = none ∨ ∃ c, s.leverTarget k = some c ∧ (s.chan c).head = none) :
    s.keyAction k 2 = s.keyIgnored k ∧ s.keyAction k 3 = s.keyIgnored k ∧ s.keyAction k 4 = s.keyIgnored k := by
  rw [keyAction_play, keyAction_pause, keyAction_live]
  rcases hi with ht | ⟨c, ht, hh⟩
  · exact ⟨targetKey_none ht, targetKey_none ht, targetKey_none ht⟩
  · exact ⟨targetKey_idle ht hh, targetKey_idle ht hh, targetKey_idle ht hh⟩

theorem chan_disarmed (d : Chan) :
    (if (s.link k).engaged then s.modLink k fun l => { l with armed := false } else s).chan d = s.chan d := by
  split <;> rfl

/-! ### CUE NEXT (R124) -/

theorem cueNextKey_none (ht : s.leverTarget k = none) : s.cueNextKey k = s.keyIgnored k := by
  simp only [State.cueNextKey, ht]

theorem cueNextKey_running (ht : s.leverTarget k = some c) (hr : (s.chan c).isRunningClip = true) :
    s.cueNextKey k = s.modChan c fun ch => { ch with staged := true } := by
  simp only [State.cueNextKey, ht, State.cueNext, hr, if_true, Bool.not_true, Bool.false_and, Bool.false_eq_true, if_false]

theorem cueNextKey_takes (ht : s.leverTarget k = some c) (hr : ¬ (s.chan c).isRunningClip = true)
    (hc : (s.chan c).cues ≠ []) :
    s.cueNextKey k = ((s.modChan c fun ch => { ch with staged := false }).takeNextCue c).1 := by
  have hsome : (s.chan c).cues.isEmpty = false := Bool.eq_false_iff.mpr fun e => hc (List.isEmpty_iff.mp e)
  simp only [State.cueNextKey, ht, cueNext_takes hr, hsome, Bool.and_false, Bool.false_eq_true, if_false]

theorem cueNextKey_empty (ht : s.leverTarget k = some c) (hr : ¬ (s.chan c).isRunningClip = true)
    (hc : (s.chan c).cues = []) :
    s.cueNextKey k = (s.modChan c fun ch => { ch with staged := false }).keyIgnored k := by
  have hcues : ((s.modChan c fun ch => { ch with staged := false }).chan c).cues = [] := by
    rw [chan_modChan, if_pos rfl]
    exact hc
  have htake : (s.modChan c fun ch => { ch with staged := false }).takeNextCue c =
      (s.modChan c fun ch => { ch with staged := false }, false) := by
    rw [State.takeNextCue, hcues, State.takeCues, modChan_self]
    rw [← hcues]
  simp only [State.cueNextKey, ht, cueNext_takes hr, htake, hc, List.isEmpty_nil, Bool.not_false, Bool.and_self, if_true]

/-! ### ANGLE NEXT (R104) -/

/-- How many turns of ANGLE NEXT take an angle to another. -/
abbrev turns (of a : Angle) : Nat := (a.val + 8 - of.val) % 8

/-- The angles in the order in which ANGLE NEXT tries them. -/
abbrev turnOrder (of : Angle) : List Angle := allAngles.filter (of < ·) ++ allAngles.filter (· < of)

theorem turnOrder_pairwise (of : Angle) : (turnOrder of).Pairwise fun a b => turns of a < turns of b := by
  revert of
  decide

theorem mem_turnOrder {of a : Angle} : a ∈ turnOrder of ↔ a ≠ of := by
  revert of a
  decide

/-- An angle that ANGLE NEXT may give a channel (R104, R120). -/
abbrev State.Qualifies (s : State) (h : Playhead) (a : Angle) : Prop :=
  a ≠ h.angle ∧ s.span a ≠ none ∧
    ∀ ctx, h.mode = .clip ctx → ∃ clip, s.findClip ctx.clipId ctx.serial = some clip ∧ a ∈ clip.angles

/-- The check of ANGLE NEXT on an angle. -/
def State.mayTurn (s : State) (h : Playhead) (a : Angle) : Bool :=
  (s.span a).isSome &&
    match h.mode with
    | .clip ctx => s.clipHasAngle ctx a
    | _ => true

theorem clipHasAngle_iff {ctx : ClipContext} {a : Angle} :
    s.clipHasAngle ctx a = true ↔ ∃ clip, s.findClip ctx.clipId ctx.serial = some clip ∧ a ∈ clip.angles := by
  unfold State.clipHasAngle
  cases s.findClip ctx.clipId ctx.serial with
  | none => simp
  | some clip => simp

theorem qualifies_iff_mayTurn {a : Angle} : s.Qualifies h a ↔ a ∈ turnOrder h.angle ∧ s.mayTurn h a = true := by
  rw [mem_turnOrder, State.mayTurn, Bool.and_eq_true, Option.isSome_iff_ne_none]
  refine and_congr_right fun _ => and_congr_right fun _ => ?_
  cases h.mode with
  | clip ctx => exact ⟨fun hq => clipHasAngle_iff.mpr (hq ctx rfl), fun hq _ e => by cases e; exact clipHasAngle_iff.mp hq⟩
  | live | paused | shuttle | play | follow => exact ⟨fun _ => rfl, fun _ _ e => by cases e⟩

theorem nextAngle_eq : s.nextAngle h = (turnOrder h.angle).find? fun a => s.mayTurn h a := rfl

theorem nextAngle_none (hn : ∀ a, ¬ s.Qualifies h a) : s.nextAngle h = none :=
  nextAngle_eq.trans (List.find?_eq_none.mpr fun a ha e => hn a (qualifies_iff_mayTurn.mpr ⟨ha, e⟩))

theorem nextAngle_some {a : Angle} (ha : s.Qualifies h a)
    (hl : ∀ b, s.Qualifies h b → turns h.angle a ≤ turns h.angle b) : s.nextAngle h = some a := by
  obtain ⟨hmem, hmay⟩ := qualifies_iff_mayTurn.mp ha
  exact nextAngle_eq.trans (find?_least (key := turns h.angle) (turnOrder_pairwise h.angle) hmem hmay fun b hb e =>
    hl b (qualifies_iff_mayTurn.mpr ⟨hb, e⟩))

theorem angleNextKey_none (hs : (s.link k).selected = none) : s.angleNextKey k = s.keyIgnored k := by
  simp only [State.angleNextKey, hs]

theorem angleNextKey_idle (hs : (s.link k).selected = some c) (hh : (s.chan c).head = none) :
    s.angleNextKey k = s.keyIgnored k := by
  simp only [State.angleNextKey, hs, hh]

theorem angleNextKey_stays (hs : (s.link k).selected = some c) (hh : (s.chan c).head = some h)
    (hn : s.nextAngle h = none) : s.angleNextKey k = s.keyIgnored k := by
  simp only [State.angleNextKey, hs, hh, hn]

theorem angleNextKey_turns {a : Angle} (hs : (s.link k).selected = some c) (hh : (s.chan c).head = some h)
    (hn : s.nextAngle h = some a) : s.angleNextKey k = s.changeAngle c a h := by
  simp only [State.angleNextKey, hs, hh, hn]

/-! ### The keys -/

/-- The mark keys, and the commands they mark as (R66 to R70, R81). -/
theorem markKeys (s : State) (k : Station) :
    (((s.openClip k = none → s.freeId ≠ none) ∧ (∀ c, s.openClip k = some c → c.scansPending = 0) →
        s.keyAction k 0 = (s.takeMarkIn k).1) ∧
      (s.openClip k = none → s.freeId = none → s.keyAction k 0 = s.keyIgnored k) ∧
      (∀ c, s.openClip k = some c → 0 < c.scansPending → s.keyAction k 0 = s.keyIgnored k) ∧
      ((s.openClip k = none → s.freeId ≠ none) → s.keyAction k 1 = (s.takeMarkOut k).1) ∧
      (s.openClip k = none → s.freeId = none → s.keyAction k 1 = s.keyIgnored k)) := by
  refine ⟨fun ⟨hf, hp⟩ => markKey_acts (result_takeMarkIn hf hp), fun ho hf => ?_, fun clip ho hp => ?_,
    fun hf => markKey_acts (result_takeMarkOut hf), fun ho hf => ?_⟩
  · exact (congrArg (markKey k) (takeMarkIn_full ho hf)).trans (markKey_ignored (.inl rfl))
  · exact (congrArg (markKey k) (takeMarkIn_busy ho hp)).trans (markKey_ignored (.inr rfl))
  · exact (congrArg (markKey k) (takeMarkOut_full ho hf)).trans (markKey_ignored (.inl rfl))

/-- Settles O49: each key, acting or ignored. -/
theorem keysActOrRaiseKeyIgnored : Obligations.KeysActOrRaiseKeyIgnored := by
  intro s k ignored
  obtain ⟨hin, hinFull, hinBusy, hout, houtFull⟩ := markKeys s k
  refine ⟨⟨hin, hinFull, hinBusy, hout, houtFull, fun h => ⟨?_, ?_⟩⟩, fun ht => ?_, fun c ht =>
    ⟨fun hh => targetKeys_ignored (.inr ⟨c, ht, hh⟩), fun h hh => ?_, ?_⟩, ⟨fun hm => if_pos (mayTake_iff.mpr hm), fun h0 hh => if_neg fun e => (mayTake_iff.mp e).elim h0 hh⟩,
    angleNextKey_none, fun c hs => ⟨angleNextKey_idle hs, fun h hh => ?_⟩⟩
  · exact event_startCommand (body := fun u => u.takeMarkIn k) h (.inl rfl) rfl fun _ _ => rfl
  · exact event_startCommand (body := fun u => u.takeMarkOut k) h (.inl rfl) rfl fun _ _ => rfl
  · obtain ⟨hplay, hpause, hlive⟩ := targetKeys_ignored (.inl ht)
    exact ⟨hplay, hpause, hlive, cueNextKey_none ht⟩
  · intro armed base
    have harmed : (armed.chan c).head = some h := (congrArg Channel.head (chan_disarmed c)).trans hh
    refine ⟨fun hm => ?_, fun ctx hm => ⟨fun hr => ⟨?_, ?_⟩, fun hr => ⟨?_, ?_⟩⟩, fun hm => ?_, fun hm => ?_,
      fun pmin pmax hs => ?_⟩
    · exact (playKey ht hh).trans (play_outside harmed hm)
    · exact (playKey ht hh).trans ((play_clip harmed hm).trans (playClip_kept.trans (if_pos hr)))
    · exact (pauseKey ht hh).trans ((pause_clip hh hm).trans (if_pos hr))
    · exact (pauseKey ht hh).trans ((pause_clip hh hm).trans (if_neg (by rw [hr]; exact nofun)))
    · exact (playKey ht hh).trans ((play_clip harmed hm).trans (playClip_kept.trans (if_neg (by rw [hr]; exact nofun))))
    · exact (pauseKey ht hh).trans (pause_moving hh hm)
    · exact (pauseKey ht hh).trans (pause_paused hh hm)
    · exact (liveKey ht hh).trans (goLive_eq hh hs)
  · intro running unstaged
    have hiff : (s.chan c).isRunningClip = true ↔ running := isRunningClip_iff _
    exact ⟨fun hr => cueNextKey_running ht (hiff.mpr hr), fun hr hc => cueNextKey_takes ht (mt hiff.mp hr) hc,
      fun hr hc => cueNextKey_empty ht (mt hiff.mp hr) hc⟩
  · intro qualifies turn
    refine ⟨fun hn => angleNextKey_stays hs hh (nextAngle_none hn), fun a pmin pmax hq hl hspan hp => ⟨fun hf => ?_,
      fun l hl' hg hlh hm => ?_⟩⟩
    · intro position
      exact (angleNextKey_turns hs hh (nextAngle_some hq hl)).trans (changeAngle_alone hf hspan hp)
    · exact (angleNextKey_turns hs hh (nextAngle_some hq hl)).trans (changeAngle_follower hg hlh hm hspan hp)

end Sys2Proof.Machine
end

section
/-! PROOFS. Proofs/Commands.lean: the start of a command (R146, R161, R169), the handshake (R168), and the messages that spell no
row (R182, R187). -/

namespace Sys2Proof.Machine

variable {s t : State} {stn k : Station} {i : Instr} {kind : CommandKind} {args : List Byte}

/-! ### The checks at the start of a command (R161, R169) -/

section
variable {fits : Bool} {body : State → State × Reply}

theorem startCommand_off (h : (s.link stn).state = .off) : startCommand stn kind fits body s = s := if_pos h

theorem startCommand_busy (h : (s.link stn).state ≠ .off) (hc : s.pendingClaim stn ≠ none) (hk : kind ≠ .cancel) :
    startCommand stn kind fits body s =
      (s.modLinkCounts stn fun n => { n with busyAnswers := min (n.busyAnswers + 1) 4294967295 }).answered stn kind .busy
        [] := by
  refine (if_neg h).trans (if_pos ?_)
  rw [Bool.and_eq_true, State.slotBusy, Option.isSome_iff_ne_none, bne_iff_ne]
  exact ⟨hc, hk⟩

/-- The slot that a command may start in: the link is not in OFF, and no CLAIM waits, or the command is CANCEL (R169). -/
abbrev State.freeFor (s : State) (stn : Station) (kind : CommandKind) : Prop :=
  (s.link stn).state ≠ .off ∧ (s.pendingClaim stn = none ∨ kind = .cancel)

theorem startCommand_free (h : s.freeFor stn kind) :
    startCommand stn kind fits body s =
      if kind.isReserved && stn != 0 then s.answered stn kind .notAllowed []
      else if !fits then s.answered stn kind .badArgument []
      else (body (s.counted stn)).1.writeAck stn (ackOf kind.code (body (s.counted stn)).2) := by
  obtain ⟨ho, hc⟩ := h
  refine (if_neg ho).trans (if_neg ?_)
  rw [Bool.and_eq_true, State.slotBusy, Option.isSome_iff_ne_none, bne_iff_ne]
  exact fun ⟨hs, hk⟩ => hc.elim hs hk

theorem startCommand_notAllowed (h : s.freeFor stn kind) (hk : kind.isReserved = true) (h0 : stn ≠ 0) :
    startCommand stn kind fits body s = s.answered stn kind .notAllowed [] := by
  rw [startCommand_free h, hk, Bool.true_and, if_pos (bne_iff_ne.mpr h0)]

theorem startCommand_unfit (h : s.freeFor stn kind) (ha : kind.isReserved = false ∨ stn = 0) (hf : fits = false) :
    startCommand stn kind fits body s = s.answered stn kind .badArgument [] := by
  rw [startCommand_free h, hf, if_neg ?_]
  · rfl
  · rw [Bool.and_eq_true, bne_iff_ne]
    rintro ⟨hr, h0⟩
    rcases ha with ha | ha
    · rw [ha] at hr
      cases hr
    · exact h0 ha

end

/-! ### Command rows as commands -/

/-- A station whose command of a kind is not taken by its owning block (R161, R169). -/
abbrev State.turnsAway (s : State) (stn : Station) (kind : CommandKind) : Prop :=
  (s.link stn).state = .off ∨ s.pendingClaim stn ≠ none ∨ kind.isReserved = true ∧ stn ≠ 0

theorem startHouseRate_turnedAway {rate : BitVec 16} {moment : Nat} {order : List Reaction}
    (h : s.turnsAway stn .houseRate) :
    startHouseRate stn rate moment order s = startCommand stn .houseRate true (houseRateRule rate) s := by
  have hno : s.takesHouseRate stn rate = false := by
    unfold State.takesHouseRate State.slotBusy
    rcases h with ho | hc | ⟨-, h0⟩
    · simp [ho]
    · simp [Option.isSome_iff_ne_none.mpr hc]
    · simp [h0]
  refine if_neg ?_
  rw [hno, Bool.false_and]
  exact nofun

/-- Every command row of a station that its owning block does not take is the start of the command its message spells. -/
theorem startRow_starts (hi : i.sender = some stn) :
    ∃ kind args fits body, encodeMessage i = some (kind, args) ∧
      ∀ u, u.turnsAway stn kind → startRow i u = startCommand stn kind fits body u := by
  cases i
  case houseRate j rate moment order =>
    cases hi
    exact ⟨_, _, _, _, rfl, fun _ h => startHouseRate_turnedAway h⟩
  case markIn | markOut | loadClip | cueAdd | select | take | restart =>
    cases hi
    dsimp only [startRow, startMarkIn, startMarkOut, startLoadClip, startCueAdd, startSelect, startTake, startRestart]
    exact ⟨_, _, _, _, rfl, fun _ _ => rfl⟩
  all_goals cases hi
  all_goals exact ⟨_, _, _, _, rfl, fun _ _ => rfl⟩

/-- A command row that names a channel first checks the channel (R88, R146). -/
theorem startRow_onChannel {channel : Byte} (hi : i.sender = some stn) (he : encodeMessage i = some (kind, args))
    (hc : Instr.onChannel? i = some channel) :
    kind.isReserved = false ∧
      ∃ rule body, (∀ u, startRow i u = startCommand stn kind true body u) ∧ ∀ u, body u = onChannel stn channel rule u := by
  cases i
  case select j c =>
    cases hi
    cases he
    obtain ⟨h0, rfl⟩ : c ≠ 0 ∧ c = channel := by
      by_cases h0 : c = 0
      · exact absurd (hc.symm.trans (if_pos h0)) nofun
      · exact ⟨h0, Option.some.inj ((if_neg h0).symm.trans hc)⟩
    exact ⟨rfl, _, _, fun _ => by dsimp only [startRow, startSelect, startLoadClip, startCueAdd], fun u => if_neg h0⟩
  case loadClip j c id serial angle pace =>
    cases hi
    cases he
    by_cases hb : badClipOrAngle id angle = true
    · exact absurd (hc.symm.trans (if_pos hb)) nofun
    · cases (if_neg hb).symm.trans hc
      exact ⟨rfl, _, _, fun _ => by dsimp only [startRow, startSelect, startLoadClip, startCueAdd], fun u => if_neg hb⟩
  case cueAdd j c id serial angle pace =>
    cases hi
    cases he
    by_cases hb : badClipOrAngle id angle = true
    · exact absurd (hc.symm.trans (if_pos hb)) nofun
    · cases (if_neg hb).symm.trans hc
      exact ⟨rfl, _, _, fun _ => by dsimp only [startRow, startSelect, startLoadClip, startCueAdd], fun u => if_neg hb⟩
  case play | pause | live | load | angle | unload | black | unblack | ungang | cueClear | cueNext | release =>
    cases hi
    cases he
    cases hc
    exact ⟨rfl, _, _, fun _ => rfl, fun _ => rfl⟩
  all_goals cases hc

theorem atEvent_eq_self (hq : s.clips.raised = false) : s.atEvent = s := by
  have hclips : { s.clips with raised := false } = s.clips := by rw [← hq]
  show { s with clips := { s.clips with raised := false } } = s
  rw [hclips]

/-- A command row starts as one event with all it starts (notes/assumptions/5.md). -/
theorem exec_row_event (hi : i.sender = some stn) (hr : s.resetHeld = false) (hq : s.clips.raised = false) :
    exec i s = .next (s.inEvent (startRow i)) := by
  rcases exec_row hi s with ⟨hc, he⟩ | ⟨-, he⟩
  · have hclips : (startRow i s).clips = s.clips := frame_startRow_touches i (Frame.refl _ s) .clips hc
    have hevent : s.inEvent (startRow i) = (startRow i s.atEvent).atEvent := rfl
    rw [he, act_released _ hr, hevent, atEvent_eq_self hq, atEvent_eq_self (by rw [hclips, hq])]
  · rw [he, act_released _ hr]

/-- What a command row does, where that leaves the table generation alone. -/
theorem exec_row_gives (hi : i.sender = some stn) (hr : s.resetHeld = false) (hq : s.clips.raised = false)
    (h : startRow i s = t) (ht : t.clips.raised = false) : exec i s = .next t := by
  have hevent : s.inEvent (startRow i) = (startRow i s.atEvent).atEvent := rfl
  rw [exec_row_event hi hr hq, hevent, atEvent_eq_self hq, h, atEvent_eq_self ht]

/-- Settles O51: the checks in their order, by the start of the row. -/
theorem commandsAreCheckedAtTheirStart : Obligations.CommandsAreCheckedAtTheirStart := by
  intro s i stn hi hr hq
  have hgives : ∀ {t : State}, startRow i s = t → t.clips.raised = false → exec i s = .next t := exec_row_gives hi hr hq
  obtain ⟨kind, args, fits, body, henc, hstart⟩ := startRow_starts hi
  refine ⟨fun ho => hgives ((hstart s (.inl ho)).trans (startCommand_off ho)) hq, fun ho hc => ⟨?_, ?_, ?_⟩, fun ho kind' args' he => ?_⟩
  · rintro id serial text rfl hlen
    exact hgives (startCommand_unfit ⟨ho, .inl hc⟩ (.inl rfl) (decide_eq_false (by omega))) hq
  · rintro leader followers rfl hlen
    refine hgives (startCommand_unfit ⟨ho, .inl hc⟩ (.inl rfl) (decide_eq_false fun ⟨h1, h3⟩ => ?_)) hq
    rcases hlen with rfl | hlen
    · exact absurd h1 (by decide)
    · omega
  · rintro points rfl h0 hlen
    exact hgives (startCommand_unfit ⟨ho, .inl hc⟩ (.inr h0) (decide_eq_false hlen)) hq
  · obtain ⟨rfl, rfl⟩ : kind = kind' ∧ args = args' := by
      rw [henc] at he
      cases he
      exact ⟨rfl, rfl⟩
    refine ⟨fun hc hk => hgives ((hstart s (.inr (.inl hc))).trans (startCommand_busy ho hc hk)) hq, fun hc h0 hk => ?_, fun hc channel hch => ?_⟩
    · have hres : kind.isReserved = true := by
        revert hk
        cases kind <;> decide
      exact hgives ((hstart s (.inr (.inr ⟨hres, h0⟩))).trans (startCommand_notAllowed ⟨ho, .inl hc⟩ hres h0)) hq
    · obtain ⟨hres, rule, body', hstart', hbody⟩ := startRow_onChannel hi he hch
      have hhears : s.hears stn := ⟨hr, ho, hc⟩
      have hrefused : ∀ r, onChannel stn channel rule (s.counted stn) = (s.counted stn, .plain r) →
          exec i s = .next ((s.counted stn).answered stn kind r []) := fun r e => by
        refine hgives ((hstart' s).trans ((startCommand_hears body' hhears (.inl hres) rfl).trans ?_)) hq
        rw [hbody, e]
        rfl
      refine ⟨fun hn => hrefused _ (onChannel_none hn), fun c hcc => ⟨fun h0 hh => hrefused _ ?_, fun h0 hn hh => hrefused _ ?_⟩⟩
      · exact onChannel_refused hcc (claimRefusal_notClaimed (s := s.counted stn) h0 hh)
      · subst h0
        exact onChannel_refused hcc (claimRefusal_claimed (s := s.counted 0) hn hh)

end Sys2Proof.Machine
end

section
/-! PROOFS. Proofs/Handshake.lean: the messages that spell no row (R182, R187), and the command handshake (R168, R169). -/

namespace Sys2Proof.Machine

variable {s : State} {k : Station} {kind : CommandKind} {args : List Byte} {moment : Nat} {order : List Reaction}
  {f : DeskFrame} {code : Byte}

/-! ### Messages that spell no row (R182, R187) -/

theorem decodePace_none (h : 2 < code.toNat) (hi lo : Byte) : decodePace code hi lo = none := by
  have hne : ∀ n : Byte, n.toNat ≤ 2 → code ≠ n := fun n hn e => by
    subst e
    omega
  rw [decodePace, if_neg (hne 0 (by decide)), if_neg (hne 1 (by decide)), if_neg (hne 2 (by decide))]

theorem decodeFilter_none (h : 2 < code.toNat) (tag : Byte) : decodeFilter code tag = none := by
  have hne : ∀ n : Byte, n.toNat ≤ 2 → code ≠ n := fun n hn e => by
    subst e
    omega
  rw [decodeFilter, if_neg (hne 0 (by decide)), if_neg (hne 1 (by decide)), if_neg (hne 2 (by decide))]

theorem unfit_of_none {α : Type} {g : α → Instr} {x : Option α} (h : x = none) : Message.ofOption (x.map g) = .unfit := by
  subst h
  rfl

/-- Whether a message is no STATS on a block outside the table. -/
def isNamed : Message → Bool
  | .unknownBlock => false
  | _ => true

theorem named_ofOption (x : Option Instr) : isNamed (Message.ofOption x) = true := by
  cases x <;> rfl

theorem decodeStats_unknown {block index option : Byte} :
    decodeStats k block index option = .unknownBlock ↔ block = 0 ∨ 5 < block.toNat := by
  unfold decodeStats
  dsimp only
  split_ifs with h1 h2 h3 h4 h5
  · subst h1; simp
  · subst h2; simp
  · subst h3; simp
  · subst h4; simp
  · subst h5; simp
  · refine iff_of_true rfl ?_
    have hne : ∀ n : Byte, block ≠ n → block.toNat ≠ n.toNat := fun n h e => h (BitVec.eq_of_toNat_eq e)
    have h1' : block.toNat ≠ 1 := hne 1 h1
    have h2' : block.toNat ≠ 2 := hne 2 h2
    have h3' : block.toNat ≠ 3 := hne 3 h3
    have h4' : block.toNat ≠ 4 := hne 4 h4
    have h5' : block.toNat ≠ 5 := hne 5 h5
    have hzero : block.toNat = 0 → block = 0 := fun e => BitVec.eq_of_toNat_eq e
    by_cases h0 : block.toNat = 0
    · exact .inl (hzero h0)
    · exact .inr (by omega)

/-- Only a STATS names a block outside the table. -/
theorem named_decodeMessage (hk : kind ≠ .stats) : isNamed (decodeMessage k moment order kind args) = true := by
  cases kind
  case stats => exact absurd rfl hk
  case markIn | markOut | cancel | take | restart => cases args <;> rfl
  case pause | live | unload | black | unblack | ungang | cueClear | cueNext | claim | release | select | cut | preview
      | forceRelease | recStart | recStop =>
    rcases args with _ | ⟨a, _ | ⟨b, rest⟩⟩ <;> rfl
  case angle | houseRate => rcases args with _ | ⟨a, _ | ⟨b, _ | ⟨c, rest⟩⟩⟩ <;> rfl
  case list =>
    rcases args with _ | ⟨a, _ | ⟨b, _ | ⟨c, rest⟩⟩⟩
    case cons.cons.nil => exact named_ofOption _
    all_goals rfl
  case linkSet => rcases args with _ | ⟨a, _ | ⟨b, _ | ⟨c, _ | ⟨d, rest⟩⟩⟩⟩ <;> rfl
  case protect | unprotect | delete | angleSet =>
    rcases args with _ | ⟨a, _ | ⟨b, _ | ⟨c, _ | ⟨d, _ | ⟨e, rest⟩⟩⟩⟩⟩ <;> rfl
  case play =>
    rcases args with _ | ⟨a, _ | ⟨b, _ | ⟨c, _ | ⟨d, _ | ⟨e, rest⟩⟩⟩⟩⟩
    case cons.cons.cons.cons.nil => exact named_ofOption _
    all_goals rfl
  case tagAdd | tagRemove | hero =>
    rcases args with _ | ⟨a, _ | ⟨b, _ | ⟨c, _ | ⟨d, _ | ⟨e, _ | ⟨f, rest⟩⟩⟩⟩⟩⟩ <;> rfl
  case load => rcases args with _ | ⟨a, _ | ⟨b, _ | ⟨c, _ | ⟨d, _ | ⟨e, _ | ⟨f, _ | ⟨g, rest⟩⟩⟩⟩⟩⟩⟩ <;> rfl
  case stationSet =>
    rcases args with _ | ⟨a, _ | ⟨b, _ | ⟨c, _ | ⟨d, _ | ⟨e, _ | ⟨f, _ | ⟨g, _ | ⟨h, rest⟩⟩⟩⟩⟩⟩⟩⟩ <;> rfl
  case loadClip | cueAdd =>
    rcases args with _ | ⟨a, _ | ⟨b, _ | ⟨c, _ | ⟨d, _ | ⟨e, _ | ⟨f, _ | ⟨g, _ | ⟨h, _ | ⟨i, _ | ⟨j, rest⟩⟩⟩⟩⟩⟩⟩⟩⟩⟩
    case cons.cons.cons.cons.cons.cons.cons.cons.cons.nil => exact named_ofOption _
    all_goals rfl
  case gang => rcases args with _ | ⟨a, _ | ⟨b, _ | ⟨c, _ | ⟨d, _ | ⟨e, rest⟩⟩⟩⟩⟩ <;> rfl
  case label =>
    rcases args with _ | ⟨a, _ | ⟨b, _ | ⟨c, _ | ⟨d, _ | ⟨e, text⟩⟩⟩⟩⟩
    case cons.cons.cons.cons.cons =>
      have hdecode : decodeMessage k moment order .label (a :: b :: c :: d :: e :: text) =
        if text.length = textBytes e.toNat then .row (.label k (a ++ b) (c ++ d) (unpackText e.toNat text)) else .unfit := rfl
      rw [hdecode]
      split <;> rfl
    all_goals rfl
  case curveSet =>
    have hdecode : decodeMessage k moment order .curveSet args =
      if args.length = 22 then .row (.curveSet k (words args)) else .unfit := rfl
    rw [hdecode]
    split <;> rfl

/-- The numbers of argument bytes a command kind takes (11.3). -/
def takes (kind : CommandKind) (args : List Byte) : List Nat :=
  match kind with
  | .markIn | .markOut | .cancel | .take | .restart => [0]
  | .pause | .live | .unload | .black | .unblack | .ungang | .cueClear | .cueNext | .claim | .release | .select
  | .cut | .preview | .forceRelease | .recStart | .recStop => [1]
  | .angle | .list | .houseRate => [2]
  | .linkSet | .stats => [3]
  | .protect | .unprotect | .delete | .play | .angleSet => [4]
  | .tagAdd | .tagRemove | .hero => [5]
  | .load => [6]
  | .stationSet => [7]
  | .loadClip | .cueAdd => [9]
  | .curveSet => [22]
  | .gang => [2, 3, 4]
  | .label => [5 + ((args.getD 4 0).toNat * 7 + 7) / 8]

/-- Arguments of another number than the kind takes spell no row (R169, R187). -/
theorem decodeMessage_unfit (h : args.length ∉ takes kind args) : decodeMessage k moment order kind args = .unfit := by
  have hne : ∀ {n : Nat}, takes kind args = [n] → args.length ≠ n := fun e x => h (by rw [e]; exact List.mem_singleton.mpr x)
  cases kind
  case markIn | markOut | cancel | take | restart =>
    cases args
    case nil => exact absurd rfl (hne rfl)
    case cons => rfl
  case pause | live | unload | black | unblack | ungang | cueClear | cueNext | claim | release | select | cut | preview
      | forceRelease | recStart | recStop =>
    rcases args with _ | ⟨a, _ | ⟨b, rest⟩⟩
    case cons.nil => exact absurd rfl (hne rfl)
    all_goals rfl
  case angle | list | houseRate =>
    rcases args with _ | ⟨a, _ | ⟨b, _ | ⟨c, rest⟩⟩⟩
    case cons.cons.nil => exact absurd rfl (hne rfl)
    all_goals rfl
  case linkSet | stats =>
    rcases args with _ | ⟨a, _ | ⟨b, _ | ⟨c, _ | ⟨d, rest⟩⟩⟩⟩
    case cons.cons.cons.nil => exact absurd rfl (hne rfl)
    all_goals rfl
  case protect | unprotect | delete | play | angleSet =>
    rcases args with _ | ⟨a, _ | ⟨b, _ | ⟨c, _ | ⟨d, _ | ⟨e, rest⟩⟩⟩⟩⟩
    case cons.cons.cons.cons.nil => exact absurd rfl (hne rfl)
    all_goals rfl
  case tagAdd | tagRemove | hero =>
    rcases args with _ | ⟨a, _ | ⟨b, _ | ⟨c, _ | ⟨d, _ | ⟨e, _ | ⟨f, rest⟩⟩⟩⟩⟩⟩
    case cons.cons.cons.cons.cons.nil => exact absurd rfl (hne rfl)
    all_goals rfl
  case load =>
    rcases args with _ | ⟨a, _ | ⟨b, _ | ⟨c, _ | ⟨d, _ | ⟨e, _ | ⟨f, _ | ⟨g, rest⟩⟩⟩⟩⟩⟩⟩
    case cons.cons.cons.cons.cons.cons.nil => exact absurd rfl (hne rfl)
    all_goals rfl
  case stationSet =>
    rcases args with _ | ⟨a, _ | ⟨b, _ | ⟨c, _ | ⟨d, _ | ⟨e, _ | ⟨f, _ | ⟨g, _ | ⟨h, rest⟩⟩⟩⟩⟩⟩⟩⟩
    case cons.cons.cons.cons.cons.cons.cons.nil => exact absurd rfl (hne rfl)
    all_goals rfl
  case loadClip | cueAdd =>
    rcases args with _ | ⟨a, _ | ⟨b, _ | ⟨c, _ | ⟨d, _ | ⟨e, _ | ⟨f, _ | ⟨g, _ | ⟨h, _ | ⟨i, _ | ⟨j, rest⟩⟩⟩⟩⟩⟩⟩⟩⟩⟩
    case cons.cons.cons.cons.cons.cons.cons.cons.cons.nil => exact absurd rfl (hne rfl)
    all_goals rfl
  case gang =>
    rcases args with _ | ⟨a, _ | ⟨b, _ | ⟨c, _ | ⟨d, _ | ⟨e, rest⟩⟩⟩⟩⟩
    case cons.cons.nil | cons.cons.cons.nil | cons.cons.cons.cons.nil => exact absurd (by simp [takes]) h
    all_goals rfl
  case label =>
    rcases args with _ | ⟨a, _ | ⟨b, _ | ⟨c, _ | ⟨d, _ | ⟨e, text⟩⟩⟩⟩⟩
    case cons.cons.cons.cons.cons =>
      have hlen : text.length ≠ textBytes e.toNat := fun x => hne rfl (by
        simp only [List.length_cons, x, textBytes, List.getD_cons_succ, List.getD_cons_zero]
        omega)
      exact if_neg hlen
    all_goals rfl
  case curveSet => exact if_neg (hne rfl)

theorem modes_unfit (c hi lo i1 i0 s1 s0 a : Byte) (h : 2 < code.toNat) :
    decodeMessage k moment order .play [c, code, hi, lo] = .unfit ∧
      decodeMessage k moment order .loadClip [c, i1, i0, s1, s0, a, code, hi, lo] = .unfit ∧
      decodeMessage k moment order .cueAdd [c, i1, i0, s1, s0, a, code, hi, lo] = .unfit ∧
      decodeMessage k moment order .list [code, hi] = .unfit :=
  ⟨unfit_of_none (decodePace_none h hi lo), unfit_of_none (decodePace_none h hi lo), unfit_of_none (decodePace_none h hi lo),
    unfit_of_none (decodeFilter_none h hi)⟩

/-! ### The handshake (R168) -/

theorem code_of_ofCode? {n : Nat} (h : CommandKind.ofCode? n = some kind) : kind.code = n :=
  of_decide_eq_true (List.find?_some (p := fun x : CommandKind => decide (x.code = n)) h)

theorem handshake_first (h : (s.link k).toggleSynced = false) :
    s.handshake k moment order f = s.modLink k fun l => { l with toggleSeen := f.toggle, toggleSynced := true } := by
  refine if_pos ?_
  rw [h]
  rfl

theorem handshake_nothing (h : (s.link k).toggleSynced = true) (hf : f.toggle = (s.link k).toggleSeen ∨ f.command = none) :
    s.handshake k moment order f = s := by
  unfold State.handshake
  dsimp only
  rw [h, if_neg nofun]
  split_ifs with ht
  · rfl
  · rw [hf.resolve_left ht]

theorem handshake_starts {message : List Byte} (h : (s.link k).toggleSynced = true) (ht : f.toggle ≠ (s.link k).toggleSeen)
    (hc : f.command = some message) :
    s.handshake k moment order f =
      startMessage k moment order message (s.modLink k fun l => { l with toggleSeen := f.toggle }) := by
  unfold State.handshake
  dsimp only
  rw [h, if_neg nofun, if_neg ht, hc]

theorem startMessage_row {i : Instr} (hk : CommandKind.ofCode? code.toNat = some kind)
    (hd : decodeMessage k moment order kind args = .row i) :
    startMessage k moment order (code :: args) s = startRow i s := by
  simp only [startMessage, hk, hd]

theorem startMessage_unfit (hk : CommandKind.ofCode? code.toNat = some kind)
    (hd : decodeMessage k moment order kind args = .unfit) :
    startMessage k moment order (code :: args) s = startCommand k kind false badArgumentRule s := by
  simp only [startMessage, hk, hd]

theorem startMessage_unknownBlock (hk : CommandKind.ofCode? code.toNat = some kind)
    (hd : decodeMessage k moment order kind args = .unknownBlock) :
    startMessage k moment order (code :: args) s = startCommand k .stats true badArgumentRule s := by
  simp only [startMessage, hk, hd]
  rfl

theorem startMessage_unknown (hk : CommandKind.ofCode? code.toNat = none) :
    startMessage k moment order (code :: args) s = startUnknown k code.toNat s := by
  simp only [startMessage, hk]

theorem startUnknown_free (h : s.pendingClaim k = none) (n : Nat) :
    startUnknown k n s = s.writeAck k { state := .done, kind := some n, result := some .unknownCommand, data := [] } := by
  refine if_neg ?_
  rw [State.slotBusy, h]
  exact nofun

theorem startUnknown_busy (h : s.pendingClaim k ≠ none) (n : Nat) :
    startUnknown k n s =
      (s.modLinkCounts k fun n => { n with busyAnswers := min (n.busyAnswers + 1) 4294967295 }).writeAck k
        { state := .done, kind := some n, result := some .busy, data := [] } :=
  if_pos (Option.isSome_iff_ne_none.mpr h)

/-- Settles O50: the toggle, the messages, what they spell, and the event of a command row. -/
theorem newTogglesStartTheirCommand : Obligations.NewTogglesStartTheirCommand := by
  refine ⟨fun s k moment order f => ⟨handshake_first, handshake_nothing, fun code args hs ht hc => ?_⟩,
    fun k moment order => ⟨fun kind args => ?_, fun c hi lo i1 i0 s1 s0 a code h => modes_unfit c hi lo i1 i0 s1 s0 a h,
      fun block index option => decodeStats_unknown⟩, fun i s hi hr hq => ?_⟩
  · intro t
    have hstart : s.handshake k moment order f = startMessage k moment order (code :: args) t := handshake_starts hs ht hc
    refine ⟨fun i kind hk hd => hstart.trans (startMessage_row hk hd),
      fun hk hw => hstart.trans ((startMessage_unknown hk).trans (startUnknown_free (s := t) hw _)), ?_⟩
    intro busy waits
    refine ⟨fun hk hw => hstart.trans ((startMessage_unknown hk).trans (startUnknown_busy (s := t) hw _)), fun kind hk ho => ?_⟩
    have ho' : (t.link k).state ≠ .off := by
      rw [link_modLink, if_pos rfl]
      exact ho
    have hcode := code_of_ofCode? hk
    have hbusy : ∀ fits, waits → kind ≠ .cancel → startCommand k kind fits badArgumentRule t = busy := fun fits hw hne => by
      rw [startCommand_busy ho' hw hne, State.answered, doneAck, hcode]
    refine ⟨fun hd => ?_, fun hd => ?_⟩
    · have hunfit := hstart.trans (startMessage_unfit hk hd)
      refine ⟨fun hw hne => hunfit.trans (hbusy false hw hne), fun hw hr => ?_, fun hw hr h0 => ?_⟩
      · exact hunfit.trans (startCommand_unfit ⟨ho', hw.imp_left not_not.mp⟩ hr rfl)
      · exact hunfit.trans (startCommand_notAllowed ⟨ho', .inl (not_not.mp hw)⟩ hr h0)
    · have hblock := hstart.trans (startMessage_unknownBlock hk hd)
      have hstats : kind = .stats := by
        by_contra hne
        have hnamed := named_decodeMessage (k := k) (moment := moment) (order := order) (args := args) hne
        rw [hd] at hnamed
        cases hnamed
      subst hstats
      refine ⟨fun hw => hblock.trans (hbusy true hw nofun), fun hw h0 => ?_, fun hw h0 => ?_⟩
      · subst h0
        have hfree : t.freeFor 0 .stats := ⟨ho', .inl (not_not.mp hw)⟩
        exact hblock.trans ((startCommand_free hfree).trans ((if_neg (by decide)).trans (if_neg (by decide))))
      · exact hblock.trans (startCommand_notAllowed ⟨ho', .inl (not_not.mp hw)⟩ rfl h0)
  · intro takes hl
    exact decodeMessage_unfit hl
  · obtain ⟨k, hk⟩ := Option.ne_none_iff_exists'.mp hi
    exact exec_row_event hk hr hq

end Sys2Proof.Machine
end

section
/-! PROOFS. Proofs/Leaving.lean: what becomes of the clip table and of each clip when channels leave CLIP (R63, R74, R75, R80). -/

namespace Sys2Proof.Machine

variable {s t u : State} {c d : Chan}

/-! ### Present clips by id and serial -/

/-- The id and the serial of a clip. -/
abbrev Clip.key (clip : Clip) : Nat × Nat := (clip.id, clip.serial)

/-- The ids and serials of the present clips. -/
abbrev State.keys (s : State) : List (Nat × Nat) := s.clips.clips.map Clip.key

/-- The test that finds a clip by its id and serial. -/
def hasKey (i j : Nat) (clip : Clip) : Bool := clip.id = i && clip.serial = j

theorem hasKey_iff {clip : Clip} {i j : Nat} : hasKey i j clip = true ↔ clip.key = (i, j) := by
  rw [hasKey, Bool.and_eq_true, decide_eq_true_eq, decide_eq_true_eq, Clip.key, Prod.mk.injEq]

theorem findClip_eq (i j : Nat) : s.findClip i j = s.clips.clips.find? (hasKey i j) := rfl

theorem clips_modClip (id serial : Nat) (f : Clip → Clip) :
    (s.modClip id serial f).clips.clips = s.clips.clips.map fun x => if hasKey id serial x = true then f x else x := rfl

theorem clips_dropClip (id serial : Nat) :
    (s.dropClip id serial).clips.clips = s.clips.clips.filter fun x => !hasKey id serial x := rfl

theorem findClip_modClip {f : Clip → Clip} (hf : ∀ x : Clip, (f x).key = x.key) (id serial i j : Nat) :
    (s.modClip id serial f).findClip i j =
      if (i, j) = (id, serial) then (s.findClip i j).map f else s.findClip i j := by
  rw [findClip_eq, findClip_eq, clips_modClip]
  induction s.clips.clips with
  | nil => simp
  | cons x rest ih =>
    have hkey : (if hasKey id serial x = true then f x else x).key = x.key := by
      split
      · exact hf x
      · rfl
    rw [List.map_cons]
    by_cases hx : x.key = (i, j)
    · rw [List.find?_cons_of_pos (hasKey_iff.mpr (hkey.trans hx)), List.find?_cons_of_pos (hasKey_iff.mpr hx)]
      by_cases he : (i, j) = (id, serial)
      · rw [if_pos (hasKey_iff.mpr (hx.trans he)), if_pos he]
        rfl
      · rw [if_neg (mt hasKey_iff.mp fun e => he (hx.symm.trans e)), if_neg he]
    · rw [List.find?_cons_of_neg (mt hasKey_iff.mp fun e => hx (hkey.symm.trans e)),
        List.find?_cons_of_neg (mt hasKey_iff.mp hx)]
      exact ih

theorem findClip_dropClip (id serial i j : Nat) :
    (s.dropClip id serial).findClip i j = if (i, j) = (id, serial) then none else s.findClip i j := by
  rw [findClip_eq, findClip_eq, clips_dropClip, List.find?_filter]
  split
  · next he =>
    obtain ⟨rfl, rfl⟩ := Prod.mk.inj he
    exact List.find?_eq_none.mpr fun x _ => by simp
  · next he =>
    congr 1
    funext x
    by_cases hx : hasKey i j x = true
    · have hno : ¬ hasKey id serial x = true := fun e => he ((hasKey_iff.mp hx).symm.trans (hasKey_iff.mp e))
      simp [hx, hno]
    · simp [hx]

theorem findClip_raiseGeneration (i j : Nat) : s.raiseGeneration.findClip i j = s.findClip i j := by
  unfold State.raiseGeneration
  split <;> rfl

theorem findClip_of_mem (hn : s.keys.Nodup) {clip : Clip} (hm : clip ∈ s.clips.clips) :
    s.findClip clip.id clip.serial = some clip := by
  rw [findClip_eq]
  unfold State.keys at hn
  generalize s.clips.clips = clips at hn hm ⊢
  induction clips with
  | nil => cases hm
  | cons x rest ih =>
    obtain ⟨hx, hrest⟩ := List.nodup_cons.mp hn
    rcases List.mem_cons.mp hm with rfl | hm
    · exact List.find?_cons_of_pos (hasKey_iff.mpr rfl)
    · have hne : x.key ≠ clip.key := fun e => hx (List.mem_map.mpr ⟨clip, hm, e.symm⟩)
      rw [List.find?_cons_of_neg (mt hasKey_iff.mp hne)]
      exact ih hrest hm

theorem mem_of_findClip {i j : Nat} {clip : Clip} (h : s.findClip i j = some clip) : clip ∈ s.clips.clips :=
  List.mem_of_find?_eq_some h

/-! ### What a settling of the scan queue does to one clip (R63, R75) -/

/-- What becomes of a clip, present or not, while scans complete: its scans pending change, a CLOSING clip may become CLOSED,
and a DELETING one may go (R63, R75). -/
structure Settles (a b : Option Clip) : Prop where
  came : ∀ x, b = some x → ∃ y, a = some y ∧ x = { y with state := x.state, scansPending := x.scansPending } ∧
    (x.state = y.state ∨ y.state = .closing ∧ x.state = .closed)
  went : b = none → ∀ y, a = some y → y.state = .deleting

theorem Settles.refl (a : Option Clip) : Settles a a :=
  ⟨fun x h => ⟨x, h, rfl, .inl rfl⟩, fun h y e => by rw [h] at e; cases e⟩

theorem Settles.trans {a b c : Option Clip} (h : Settles a b) (k : Settles b c) : Settles a c := by
  refine ⟨fun x hx => ?_, fun hc y hy => ?_⟩
  · obtain ⟨y, hy, hxy, hstate⟩ := k.came x hx
    obtain ⟨z, hz, hyz, hstate'⟩ := h.came y hy
    refine ⟨z, hz, ?_, ?_⟩
    · rw [hxy, hyz]
    · rcases hstate with e | ⟨e, e'⟩ <;> rcases hstate' with f | ⟨f, f'⟩
      · exact .inl (e.trans f)
      · exact .inr ⟨f, e.trans f'⟩
      · exact .inr ⟨f ▸ e, e'⟩
      · rw [e] at f'
        cases f'
  · cases hb : b with
    | none => exact h.went hb y hy
    | some x =>
      obtain ⟨z, hz, -, hstate⟩ := h.came x hb
      rw [hy] at hz
      cases hz
      have hx := k.went hc x hb
      rcases hstate with e | ⟨-, e⟩
      · exact e ▸ hx
      · rw [hx] at e
        cases e

/-- A clip whose scans pending change. -/
theorem Settles.map (a : Option Clip) (n : Clip → Nat) : Settles a (a.map fun x => { x with scansPending := n x }) := by
  refine ⟨fun x hx => ?_, fun h y e => by rw [e] at h; cases h⟩
  obtain ⟨y, hy, rfl⟩ := Option.map_eq_some_iff.mp hx
  exact ⟨y, hy, rfl, .inl rfl⟩

theorem settles_ite {p : Prop} [Decidable p] {a b : Option Clip} (h : Settles a b) : Settles a (if p then b else a) := by
  split
  · exact h
  · exact Settles.refl a

theorem settles_scanCompleted (id serial i j : Nat) : Settles (s.findClip i j) ((s.scanCompleted id serial).findClip i j) := by
  unfold State.scanCompleted
  cases hf : s.findClip id serial with
  | none => exact Settles.refl _
  | some x =>
    dsimp only
    split
    · split
      · next hs =>
        rw [findClip_raiseGeneration,
          findClip_modClip (f := fun d => { d with scansPending := 0, state := .closed }) fun _ => rfl]
        split
        · next e =>
          obtain ⟨rfl, rfl⟩ := Prod.mk.inj e
          rw [hf]
          refine ⟨fun y hy => ?_, nofun⟩
          cases hy
          exact ⟨x, rfl, rfl, .inr ⟨hs, rfl⟩⟩
        · exact Settles.refl _
      · next hs =>
        rw [findClip_raiseGeneration, findClip_dropClip]
        split
        · next e =>
          obtain ⟨rfl, rfl⟩ := Prod.mk.inj e
          rw [hf]
          refine ⟨nofun, fun _ y hy => ?_⟩
          cases hy
          exact hs
        · exact Settles.refl _
      · rw [findClip_modClip (f := fun d => { d with scansPending := 0 }) fun _ => rfl]
        exact settles_ite (Settles.map _ _)
    · rw [findClip_modClip (f := fun d => { d with scansPending := d.scansPending - 1 }) fun _ => rfl]
      exact settles_ite (Settles.map _ _)

theorem settles_settleFrom (scans : List Scan) (i j : Nat) :
    ∀ s : State, Settles (s.findClip i j) ((s.settleFrom scans).findClip i j) := by
  induction scans with
  | nil => exact fun s => Settles.refl _
  | cons sc rest ih =>
    intro s
    unfold State.settleFrom
    split
    · exact (settles_scanCompleted (s := { s with pages := { s.pages with scans := rest } }) sc.clipId sc.serial i j).trans
        (ih _)
    · exact Settles.refl _

theorem settles_queueScan (x : Clip) (start : Nat) (stop : Option Nat) (i j : Nat) :
    Settles (s.findClip i j) ((s.queueScan x .remove .cover start stop false).findClip i j) := by
  have hfind := findClip_modClip (s := { s with pages := { s.pages with scans := s.pages.scans ++
    [{ clipId := x.id, serial := x.serial, kind := .remove, rule := .cover, start := start, stop := stop,
       headAtOnce := false, angles := x.angles.map (s.scanAngle stop.isNone false start) }] } })
    (f := fun d => { d with scansPending := d.scansPending + 1 }) (fun _ => rfl) x.id x.serial i j
  refine Eq.subst (motive := Settles (s.findClip i j)) hfind.symm (settles_ite ?_)
  exact Settles.map _ _

/-- The deletion of a clip, seen from any clip: that clip is DELETING, and then the scan queue settles (R74). -/
theorem settles_startDeletion (x : Clip) (i j : Nat) :
    Settles (if (i, j) = x.key then (s.findClip i j).map fun d => { d with state := .deleting } else s.findClip i j)
      ((s.startDeletion x).findClip i j) := by
  have hmark : ((s.modClip x.id x.serial fun d => { d with state := .deleting }).raiseGeneration).findClip i j =
      if (i, j) = x.key then (s.findClip i j).map fun d => { d with state := .deleting } else s.findClip i j := by
    rw [findClip_raiseGeneration, findClip_modClip (f := fun d => { d with state := .deleting }) fun _ => rfl]
  rw [← hmark]
  exact (settles_queueScan x x.inMark x.outMark i j).trans (settles_settleFrom _ i j _)

/-! ### What a leaving of CLIP does to one clip (R74, R80) -/

theorem dropUse_none {id serial : Nat} (h : s.findClip id serial = none) : s.dropUse id serial = s := by
  simp only [State.dropUse, h]

/-- The clip a use count falls of, with its use count fallen. -/
abbrev State.used (s : State) (id serial : Nat) : State :=
  s.modClip id serial fun x => { x with useCount := x.useCount - 1 }

theorem dropUse_some {id serial : Nat} {x : Clip} (h : s.findClip id serial = some x) :
    s.dropUse id serial = if x.state = .retiring ∧ x.useCount - 1 = 0 then
      (if x.isProtected then (s.used id serial).startDeletion x else (s.used id serial).removeClip x)
    else s.used id serial := by
  simp only [State.dropUse, h, Bool.and_eq_true, decide_eq_true_eq]

/-- Another clip only settles. -/
theorem settles_dropUse_ne {id serial i j : Nat} (h : (i, j) ≠ (id, serial)) :
    Settles (s.findClip i j) ((s.dropUse id serial).findClip i j) := by
  cases hf : s.findClip id serial with
  | none => rw [dropUse_none hf]; exact Settles.refl _
  | some x =>
    obtain ⟨rfl, rfl⟩ := findClip_id hf
    have hused : (s.used x.id x.serial).findClip i j = s.findClip i j :=
      (findClip_modClip (f := fun z => { z with useCount := z.useCount - 1 }) (fun _ => rfl) _ _ _ _).trans (if_neg h)
    rw [dropUse_some hf]
    split
    · split
      · have hdel := settles_startDeletion (s := s.used x.id x.serial) x i j
        rw [if_neg h, hused] at hdel
        exact hdel
      · rw [State.removeClip, findClip_raiseGeneration, findClip_dropClip, if_neg h, hused]
        exact Settles.refl _
    · rw [hused]
      exact Settles.refl _

/-- What is present of a clip that `r` channels still play, while channels leave CLIP: it is unchanged but for its use count
and its scans; a RETIRING one stands while it is played, and after that is being deleted, or is gone (R63, R74, R75, R80). -/
structure Tracks (x : Clip) (r : Nat) (o : Option Clip) : Prop where
  same : ∀ y, o = some y → y = { x with state := y.state, useCount := r, scansPending := y.scansPending }
  stays : x.state ≠ .retiring → x.state ≠ .deleting → ∃ y, o = some y ∧ y.state ≠ .retiring ∧ y.state ≠ .deleting
  deleting : x.state = .deleting → ∀ y, o = some y → y.state = .deleting
  waits : x.state = .retiring → 0 < r → ∃ y, o = some y ∧ y.state = .retiring
  goes : x.state = .retiring → r = 0 → (∀ y, o = some y → y.state = .deleting) ∧ (x.isProtected = false → o = none)

theorem Tracks.settled {x : Clip} {r : Nat} {a b : Option Clip} (h : Tracks x r a) (k : Settles a b) : Tracks x r b := by
  refine ⟨fun y hy => ?_, fun hr hd => ?_, fun hd y hy => ?_, fun hr h0 => ?_, fun hr h0 => ⟨fun y hy => ?_, fun hp => ?_⟩⟩
  · obtain ⟨z, hz, hyz, -⟩ := k.came y hy
    rw [hyz, h.same z hz]
  · obtain ⟨z, hz, hzr, hzd⟩ := h.stays hr hd
    cases hb : b with
    | none => exact absurd (k.went hb z hz) hzd
    | some y =>
      obtain ⟨z', hz', -, hstate⟩ := k.came y hb
      rw [hz] at hz'
      cases hz'
      refine ⟨y, rfl, ?_⟩
      rcases hstate with e | ⟨-, e⟩
      · rw [e]
        exact ⟨hzr, hzd⟩
      · rw [e]
        exact ⟨nofun, nofun⟩
  · obtain ⟨z, hz, -, hstate⟩ := k.came y hy
    have hzd := h.deleting hd z hz
    rcases hstate with e | ⟨e, -⟩
    · exact e.trans hzd
    · rw [hzd] at e
      cases e
  · obtain ⟨z, hz, hzr⟩ := h.waits hr h0
    cases hb : b with
    | none =>
      have hgone := k.went hb z hz
      rw [hzr] at hgone
      cases hgone
    | some y =>
      obtain ⟨z', hz', -, hstate⟩ := k.came y hb
      rw [hz] at hz'
      cases hz'
      refine ⟨y, rfl, ?_⟩
      rcases hstate with e | ⟨e, -⟩
      · exact e.trans hzr
      · rw [hzr] at e
        cases e
  · obtain ⟨z, hz, -, hstate⟩ := k.came y hy
    have hzd := (h.goes hr h0).1 z hz
    rcases hstate with e | ⟨e, -⟩
    · exact e.trans hzd
    · rw [hzd] at e
      cases e
  · have ha := (h.goes hr h0).2 hp
    cases hb : b with
    | none => rfl
    | some y =>
      obtain ⟨z, hz, -⟩ := k.came y hb
      rw [ha] at hz
      cases hz

/-- A clip that a channel leaves has one channel fewer (R74, R80). -/
theorem Tracks.dropUse {x : Clip} {r : Nat} (h : Tracks x (r + 1) (s.findClip x.id x.serial)) :
    Tracks x r ((s.dropUse x.id x.serial).findClip x.id x.serial) := by
  cases hf : s.findClip x.id x.serial with
  | none =>
    rw [hf] at h
    rw [dropUse_none hf, hf]
    refine ⟨nofun, fun hr hd => ?_, fun _ => nofun, fun hr _ => ?_, fun hr _ => ?_⟩
    · obtain ⟨y, e, -⟩ := h.stays hr hd
      cases e
    · obtain ⟨y, e, -⟩ := h.waits hr (Nat.succ_pos r)
      cases e
    · exact ⟨nofun, fun _ => rfl⟩
  | some y =>
    rw [hf] at h
    have hsame := h.same y rfl
    have huse : y.useCount = r + 1 := by rw [hsame]
    have hprotected : y.isProtected = x.isProtected := by rw [hsame]
    have hkey : y.key = x.key := by rw [hsame]
    have hused : (s.used x.id x.serial).findClip x.id x.serial = some { y with useCount := r } := by
      rw [State.used, findClip_modClip (f := fun z => { z with useCount := z.useCount - 1 }) fun _ => rfl, if_pos rfl, hf,
        Option.map_some, huse]
      rfl
    have hretiring : y.state = .retiring → x.state = .retiring := fun e => by
      by_contra hr
      by_cases hd : x.state = .deleting
      · rw [h.deleting hd y rfl] at e
        cases e
      · obtain ⟨z, hz, hzr, -⟩ := h.stays hr hd
        cases hz
        exact hzr e
    have hfallen : { y with useCount := r } =
        ({ x with state := y.state, useCount := r, scansPending := y.scansPending } : Clip) := by rw [hsame]
    rw [dropUse_some hf]
    by_cases hgoes : y.state = .retiring ∧ y.useCount - 1 = 0
    · have hr := hretiring hgoes.1
      have h0 : r = 0 := by omega
      rw [if_pos hgoes]
      by_cases hp : y.isProtected = true
      · rw [if_pos hp]
        have hdel := settles_startDeletion (s := s.used x.id x.serial) y x.id x.serial
        rw [if_pos hkey.symm, hused] at hdel
        refine Tracks.settled ⟨fun z hz => ?_, fun e => absurd hr e, fun e => ?_, fun _ e => ?_, fun _ _ => ⟨fun z hz => ?_,
          fun e => ?_⟩⟩ hdel
        · cases hz
          show ({ y with useCount := r, state := .deleting } : Clip) = _
          rw [hsame]
        · rw [hr] at e
          cases e
        · omega
        · cases hz
          rfl
        · rw [← hprotected, hp] at e
          cases e
      · rw [if_neg hp, State.removeClip, findClip_raiseGeneration, findClip_dropClip, if_pos hkey.symm]
        refine ⟨nofun, fun e => absurd hr e, fun _ => nofun, fun _ e => ?_, fun _ _ => ⟨nofun, fun _ => rfl⟩⟩
        omega
    · rw [if_neg hgoes, hused]
      refine ⟨fun z hz => ?_, fun hr hd => ?_, fun hd z hz => ?_, fun hr h0 => ?_, fun hr h0 => ?_⟩
      · cases hz
        exact hfallen
      · obtain ⟨z, hz, hstate⟩ := h.stays hr hd
        cases hz
        exact ⟨_, rfl, hstate⟩
      · cases hz
        exact h.deleting hd y rfl
      · obtain ⟨z, hz, hstate⟩ := h.waits hr (Nat.succ_pos r)
        cases hz
        exact ⟨_, rfl, hstate⟩
      · obtain ⟨z, hz, hstate⟩ := h.waits hr (Nat.succ_pos r)
        cases hz
        exact absurd ⟨hstate, by omega⟩ hgoes

end Sys2Proof.Machine
end

section
/-! PROOFS. Proofs/Restart.lean: the controller restart (R183, section 10.6). -/

namespace Sys2Proof.Machine

variable {s t u : State} {c d : Chan} {k : Station}

/-! ### What the leaving of CLIP leaves alone -/

/-- What a change of the clip table by use counts, deletions and completions of scans leaves alone. -/
structure Leaves (s t : State) : Prop where
  pages : t.pages = { s.pages with scans := t.pages.scans }
  serialCounter : t.clips.serialCounter = s.clips.serialCounter
  openCounts : t.clips.openCounts = s.clips.openCounts
  keys : t.keys.Sublist s.keys
  chans : ∀ d, { t.chan d with staged := false } = { s.chan d with staged := false }

theorem Leaves.refl (s : State) : Leaves s s := ⟨rfl, rfl, rfl, List.Sublist.refl _, fun _ => rfl⟩

theorem Leaves.trans (h : Leaves s t) (k : Leaves t u) : Leaves s u := by
  refine ⟨?_, k.serialCounter.trans h.serialCounter, k.openCounts.trans h.openCounts, k.keys.trans h.keys,
    fun d => (k.chans d).trans (h.chans d)⟩
  rw [k.pages, h.pages]

theorem leaves_modClip {f : Clip → Clip} (hf : ∀ x : Clip, (f x).key = x.key) (id serial : Nat) :
    Leaves s (s.modClip id serial f) := by
  refine ⟨rfl, rfl, rfl, ?_, fun _ => rfl⟩
  have hkeys : (s.modClip id serial f).keys = s.keys := by
    unfold State.keys
    rw [clips_modClip, List.map_map]
    refine List.map_congr_left fun x _ => ?_
    show (if hasKey id serial x = true then f x else x).key = x.key
    split
    · exact hf x
    · rfl
  rw [hkeys]

theorem leaves_dropClip (id serial : Nat) : Leaves s (s.dropClip id serial) :=
  ⟨rfl, rfl, rfl, List.filter_sublist.map _, fun _ => rfl⟩

theorem leaves_raiseGeneration : Leaves s s.raiseGeneration := by
  unfold State.raiseGeneration
  split <;> exact ⟨rfl, rfl, rfl, List.Sublist.refl _, fun _ => rfl⟩

theorem leaves_scans (scans : List Scan) : Leaves s { s with pages := { s.pages with scans := scans } } :=
  ⟨rfl, rfl, rfl, List.Sublist.refl _, fun _ => rfl⟩

theorem leaves_scanCompleted (id serial : Nat) : Leaves s (s.scanCompleted id serial) := by
  unfold State.scanCompleted
  split
  · exact Leaves.refl s
  · split
    · split
      · exact (leaves_modClip (f := fun d => { d with scansPending := 0, state := .closed }) (fun _ => rfl) id serial).trans
          leaves_raiseGeneration
      · exact (leaves_dropClip id serial).trans leaves_raiseGeneration
      · exact leaves_modClip (f := fun d => { d with scansPending := 0 }) (fun _ => rfl) id serial
    · exact leaves_modClip (f := fun d => { d with scansPending := d.scansPending - 1 }) (fun _ => rfl) id serial

theorem leaves_settleFrom (scans : List Scan) : ∀ s : State, Leaves s (s.settleFrom scans) := by
  induction scans with
  | nil => exact fun s => leaves_scans []
  | cons sc rest ih =>
    intro s
    unfold State.settleFrom
    split
    · exact ((leaves_scans rest).trans (leaves_scanCompleted sc.clipId sc.serial)).trans (ih _)
    · exact leaves_scans _

theorem leaves_startDeletion (x : Clip) : Leaves s (s.startDeletion x) := by
  have hmark : Leaves s ((s.modClip x.id x.serial fun d => { d with state := .deleting }).raiseGeneration) :=
    (leaves_modClip (f := fun d => { d with state := .deleting }) (fun _ => rfl) x.id x.serial).trans leaves_raiseGeneration
  refine hmark.trans (Leaves.trans ?_ (leaves_settleFrom _ _))
  exact (leaves_scans _).trans
    (leaves_modClip (f := fun d => { d with scansPending := d.scansPending + 1 }) (fun _ => rfl) x.id x.serial)

theorem leaves_dropUse (id serial : Nat) : Leaves s (s.dropUse id serial) := by
  have hused : Leaves s (s.used id serial) :=
    leaves_modClip (f := fun z => { z with useCount := z.useCount - 1 }) (fun _ => rfl) id serial
  cases hf : s.findClip id serial with
  | none => rw [dropUse_none hf]; exact Leaves.refl s
  | some x =>
    rw [dropUse_some hf]
    split
    · split
      · exact hused.trans (leaves_startDeletion x)
      · exact (hused.trans (leaves_dropClip x.id x.serial)).trans leaves_raiseGeneration
    · exact hused

/-! ### The channels leave CLIP -/

/-- The clip a channel plays. -/
def State.playing (s : State) (c : Chan) : Option (Nat × Nat) :=
  (s.chan c).head.bind fun h => match h.mode with
    | .clip ctx => some (ctx.clipId, ctx.serial)
    | _ => none

theorem leaveClip_none (h : s.playing c = none) : s.leaveClip c = s := by
  unfold State.playing at h
  cases hh : (s.chan c).head with
  | none => simp only [State.leaveClip, hh]
  | some x =>
    refine leaveClip_outside hh fun ctx e => ?_
    rw [hh, Option.bind_some, e] at h
    cases h

theorem leaveClip_some {id serial : Nat} (h : s.playing c = some (id, serial)) :
    s.leaveClip c = (s.modChan c fun ch => { ch with staged := false }).dropUse id serial := by
  unfold State.playing at h
  cases hh : (s.chan c).head with
  | none =>
    rw [hh] at h
    cases h
  | some x =>
    rw [hh, Option.bind_some] at h
    cases hm : x.mode with
    | clip ctx =>
      rw [hm] at h
      cases h
      simp only [State.leaveClip, hh, hm]
    | live | paused | shuttle | play | follow =>
      rw [hm] at h
      cases h

theorem playing_leaveClip (c d : Chan) : (s.leaveClip c).playing d = s.playing d := by
  rw [State.playing, head_leaveClip, State.playing]

theorem leaves_leaveClip (c : Chan) : Leaves s (s.leaveClip c) := by
  cases h : s.playing c with
  | none => rw [leaveClip_none h]; exact Leaves.refl s
  | some key =>
    rw [leaveClip_some h]
    refine Leaves.trans (t := s.modChan c fun ch => { ch with staged := false })
      ⟨rfl, rfl, rfl, List.Sublist.refl _, fun d => ?_⟩ (leaves_dropUse _ _)
    rw [chan_modChan]
    split <;> rfl

theorem leaves_foldl (cs : List Chan) : ∀ s : State, Leaves s (cs.foldl (fun t c => t.leaveClip c) s) := by
  induction cs with
  | nil => exact Leaves.refl
  | cons c rest ih => exact fun s => (leaves_leaveClip c).trans (ih _)

/-- Whether a channel plays a clip. -/
def State.plays (s : State) (x : Clip) (c : Chan) : Bool := s.playing c == some x.key

/-- Every clip, with the number of channels that still play it, as the channels leave CLIP. -/
theorem tracks_foldl (x : Clip) (cs : List Chan) :
    ∀ {s u : State}, (∀ c, u.playing c = s.playing c) →
      Tracks x (cs.filter (s.plays x)).length (u.findClip x.id x.serial) →
        Tracks x 0 ((cs.foldl (fun t c => t.leaveClip c) u).findClip x.id x.serial) := by
  induction cs with
  | nil => exact fun _ h => h
  | cons c rest ih =>
    intro s u hp h
    have hp' : ∀ d, (u.leaveClip c).playing d = s.playing d := fun d => (playing_leaveClip c d).trans (hp d)
    refine ih (u := u.leaveClip c) hp' ?_
    cases hc : s.playing c with
    | none =>
      have hno : s.plays x c = false := by rw [State.plays, hc]; rfl
      rw [List.filter_cons_of_neg (by rw [hno]; exact nofun)] at h
      rw [leaveClip_none ((hp c).trans hc)]
      exact h
    | some key =>
      rw [leaveClip_some ((hp c).trans hc)]
      by_cases hk : key = x.key
      · have hyes : s.plays x c = true := by rw [State.plays, hc, hk]; exact beq_self_eq_true _
        rw [List.filter_cons_of_pos hyes, List.length_cons] at h
        subst hk
        exact Tracks.dropUse (s := u.modChan c fun ch => { ch with staged := false }) h
      · have hno : s.plays x c = false := by
          rw [State.plays, hc]
          exact beq_false_of_ne fun e => hk (Option.some.inj e)
        rw [List.filter_cons_of_neg (by rw [hno]; exact nofun)] at h
        exact h.settled (settles_dropUse_ne (s := u.modChan c fun ch => { ch with staged := false }) fun e => hk e.symm)

/-- A present clip, as the restart finds it: all the channels that play it are still in CLIP (R80). -/
theorem tracks_start {x : Clip} (hn : s.keys.Nodup) (hx : x ∈ s.clips.clips) (hr : x.state = .retiring → 0 < x.useCount) :
    Tracks x x.useCount (s.findClip x.id x.serial) := by
  rw [findClip_of_mem hn hx]
  refine ⟨fun y e => ?_, fun h1 h2 => ⟨x, rfl, h1, h2⟩, fun h y e => ?_, fun h _ => ⟨x, rfl, h⟩, fun h h0 => ?_⟩
  · cases e
    rfl
  · cases e
    exact h
  · exact absurd h0 (Nat.ne_of_gt (hr h))

/-! ### A table without RETIRING clips -/

theorem modClip_absent {id serial : Nat} {f : Clip → Clip} (h : s.findClip id serial = none) : s.modClip id serial f = s := by
  have hclips : s.clips.clips.map (fun x => if hasKey id serial x = true then f x else x) = s.clips.clips := by
    rw [findClip_eq, List.find?_eq_none] at h
    calc s.clips.clips.map (fun x => if hasKey id serial x = true then f x else x)
        = s.clips.clips.map (fun x => x) := List.map_congr_left fun x hx => if_neg (h x hx)
      _ = s.clips.clips := List.map_id _
  show { s with clips := { s.clips with clips := s.clips.clips.map fun x => if hasKey id serial x = true then f x else x } } = s
  rw [hclips]

theorem clipTable_used (id serial : Nat) : (s.used id serial).clips = { s.clips with
    clips := s.clips.clips.map fun x => if hasKey id serial x = true then { x with useCount := x.useCount - 1 } else x } := rfl

theorem dropUse_unretired (h : ∀ x ∈ s.clips.clips, x.state ≠ .retiring) (id serial : Nat) :
    s.dropUse id serial = s.used id serial := by
  cases hf : s.findClip id serial with
  | none => rw [dropUse_none hf, State.used, modClip_absent hf]
  | some x => rw [dropUse_some hf, if_neg fun e => h x (mem_of_findClip hf) e.1]

theorem leaveClip_unretired (h : ∀ x ∈ s.clips.clips, x.state ≠ .retiring) (c : Chan) :
    (s.leaveClip c).pages = s.pages ∧ (s.leaveClip c).clips = { s.clips with clips := s.clips.clips.map fun x =>
      { x with useCount := x.useCount - ([c].filter (s.plays x)).length } } := by
  cases hc : s.playing c with
  | none =>
    have hmap : s.clips.clips.map (fun x => { x with useCount := x.useCount - ([c].filter (s.plays x)).length }) =
        s.clips.clips.map id := List.map_congr_left fun x _ => by
      rw [List.filter_singleton, State.plays, hc]
      rfl
    rw [leaveClip_none hc, hmap, List.map_id]
    exact ⟨rfl, rfl⟩
  | some key =>
    rw [leaveClip_some hc, dropUse_unretired (s := s.modChan c fun ch => { ch with staged := false }) h, clipTable_used]
    refine ⟨rfl, congrArg (fun l => { s.clips with clips := l }) (List.map_congr_left fun x _ => ?_)⟩
    rw [List.filter_singleton, State.plays, hc]
    by_cases hk : hasKey key.1 key.2 x = true
    · rw [if_pos hk, hasKey_iff.mp hk, beq_self_eq_true]
      rfl
    · rw [if_neg hk, beq_false_of_ne fun e => hk (hasKey_iff.mpr (Option.some.inj e).symm)]
      rfl

/-- Channels that leave CLIP while no clip is RETIRING only take back their uses (R80). -/
theorem foldl_unretired (cs : List Chan) : ∀ {u : State}, (∀ c, u.playing c = s.playing c) →
    (∀ x ∈ u.clips.clips, x.state ≠ .retiring) →
      (cs.foldl (fun t c => t.leaveClip c) u).pages = u.pages ∧
      (cs.foldl (fun t c => t.leaveClip c) u).clips = { u.clips with clips := u.clips.clips.map fun x =>
        { x with useCount := x.useCount - (cs.filter (s.plays x)).length } } := by
  induction cs with
  | nil => exact fun {u} _ _ => ⟨rfl, congrArg (fun l => { u.clips with clips := l }) (List.map_id _).symm⟩
  | cons c rest ih =>
    intro u hp h
    obtain ⟨hpages, hclips⟩ := leaveClip_unretired h c
    have hplays : ∀ x, u.plays x = s.plays x := fun x => funext fun d => by rw [State.plays, State.plays, hp d]
    have hstep := ih (u := u.leaveClip c) (fun d => (playing_leaveClip c d).trans (hp d)) fun x hx => by
      rw [hclips] at hx
      obtain ⟨y, hy, rfl⟩ := List.mem_map.mp hx
      exact h y hy
    refine ⟨hstep.1.trans hpages, hstep.2.trans ?_⟩
    rw [hclips]
    refine congrArg (fun l => { u.clips with clips := l }) ?_
    rw [List.map_map]
    refine List.map_congr_left fun x _ => ?_
    have hlen : ((c :: rest).filter (s.plays x)).length =
        ([c].filter (s.plays x)).length + (rest.filter (s.plays x)).length := by
      rw [← List.length_append, ← List.filter_append, List.singleton_append]
    rw [hlen, Function.comp_apply, hplays, Nat.sub_add_eq]
    rfl

/-! ### The parts of the restart -/

/-- The channels have left CLIP (R84). -/
def State.left (s : State) : State := allChans.foldl (fun t c => t.leaveClip c) s

/-- Every link takes its values of a controller restart (R175). -/
def State.restartLinks (s : State) : State := allStations.foldl (fun t k => t.modLink k (Link.restart k)) s

/-- Every block but the links takes its values of a controller restart. -/
def State.restartBlocks (s : State) : State := s.clearPins.withdrawFetches.restartChannels.restartArbiter

theorem restart_eq (s : State) : s.restart = s.left.restartBlocks.restartLinks := rfl

/-- What no change of a link touches, the restart of the links leaves alone. -/
theorem restartLinks_keeps {α : Type} (part : State → α) (hp : ∀ s k f, part (s.modLink k f) = part s) (s : State) :
    part s.restartLinks = part s := by
  have hfold : ∀ (ks : List Station) (u : State), part (ks.foldl (fun t k => t.modLink k (Link.restart k)) u) = part u := by
    intro ks
    induction ks with
    | nil => exact fun _ => rfl
    | cons k rest ih => exact fun u => (ih _).trans (hp u k (Link.restart k))
  exact hfold allStations s

theorem restartBlocks_clips : s.restartBlocks.clips = s.clips := rfl
theorem restartBlocks_pages : s.restartBlocks.pages = s.clearPins.pages := rfl
theorem restartBlocks_arbiter : s.restartBlocks.arbiter = .reset := rfl
theorem restartBlocks_fetchOut : s.restartBlocks.fetchOut = s.fetchOut.filter fun r => !s.isInFlight r := rfl
theorem restartBlocks_chan (c : Chan) : s.restartBlocks.chan c = (s.chan c).restart := vector_map_get ..
theorem restartBlocks_link (k : Station) : s.restartBlocks.link k = s.link k := rfl

theorem restart_clips : s.restart.clips = s.left.clips := by
  rw [restart_eq, restartLinks_keeps State.clips (fun _ _ _ => rfl), restartBlocks_clips]

theorem restart_pages : s.restart.pages = s.left.clearPins.pages := by
  rw [restart_eq, restartLinks_keeps State.pages (fun _ _ _ => rfl), restartBlocks_pages]

theorem restart_arbiter : s.restart.arbiter = .reset := by
  rw [restart_eq, restartLinks_keeps State.arbiter (fun _ _ _ => rfl), restartBlocks_arbiter]

theorem restart_fetchOut : s.restart.fetchOut = s.left.fetchOut.filter fun r => !s.left.isInFlight r := by
  rw [restart_eq, restartLinks_keeps State.fetchOut (fun _ _ _ => rfl), restartBlocks_fetchOut]

theorem restart_chan (c : Chan) : s.restart.chan c = (s.left.chan c).restart := by
  rw [restart_eq, restartLinks_keeps (fun u => u.chan c) (fun _ _ _ => rfl), restartBlocks_chan]

theorem link_foldl_modLink (f : Station → Link → Link) (k : Station) : ∀ (ks : List Station) (s : State), ks.Nodup →
    (ks.foldl (fun t j => t.modLink j (f j)) s).link k = if k ∈ ks then f k (s.link k) else s.link k := by
  intro ks
  induction ks with
  | nil => exact fun s _ => rfl
  | cons j rest ih =>
    intro s hn
    obtain ⟨hj, hrest⟩ := List.nodup_cons.mp hn
    rw [List.foldl_cons, ih _ hrest, link_modLink]
    by_cases e : k = j
    · subst e
      rw [if_neg hj, if_pos rfl, if_pos (List.mem_cons_self ..)]
    · rw [if_neg e]
      simp only [List.mem_cons, e, false_or]

theorem frame_left (s : State) : Frame [.channels, .pages, .clips] s s.left :=
  Frame.foldl _ _ (fun _ c hu => frame_leaveClip (by decide) (by decide) (by decide) c hu) (Frame.refl _ s)

theorem restart_link (k : Station) : s.restart.link k = Link.restart k (s.link k) := by
  rw [restart_eq, State.restartLinks, link_foldl_modLink Link.restart k allStations _ (by decide),
    if_pos (by revert k; decide), restartBlocks_link, (frame_left s).link (by decide) (by decide) k]

theorem leaves_left (s : State) : Leaves s s.left := leaves_foldl allChans s

end Sys2Proof.Machine
end

section
/-! PROOFS. Proofs/RestartCommand.lean: RESTART as a command, and the state it leaves (R183, section 10.6). -/

namespace Sys2Proof.Machine

variable {s t u : State} {c d : Chan} {k : Station}

/-! ### The clip table after a restart -/

/-- The use counts are the channels in CLIP (R80). -/
def State.UsesCounted (s : State) : Prop := ∀ x ∈ s.clips.clips, x.useCount = (allChans.filter (s.plays x)).length

theorem left_unretired (hu : s.UsesCounted) (h : ∀ x ∈ s.clips.clips, x.state ≠ .retiring) :
    s.left.pages = s.pages ∧
      s.left.clips = { s.clips with clips := s.clips.clips.map fun x => { x with useCount := 0 } } := by
  obtain ⟨hpages, hclips⟩ := foldl_unretired (s := s) allChans (u := s) (fun _ => rfl) h
  refine ⟨hpages, Eq.trans hclips (congrArg (fun l => { s.clips with clips := l }) (List.map_congr_left fun x hx => ?_))⟩
  rw [← hu x hx, Nat.sub_self]

theorem tracks_left (hn : s.keys.Nodup) (hu : s.UsesCounted) {x : Clip} (hx : x ∈ s.clips.clips)
    (hr : x.state = .retiring → 0 < x.useCount) : Tracks x 0 (s.left.findClip x.id x.serial) := by
  have hstart := tracks_start hn hx hr
  rw [hu x hx] at hstart
  exact tracks_foldl x allChans (s := s) (fun _ => rfl) hstart

/-- What is left of the table: no use count, and no RETIRING clip (R74, R80, R84). -/
theorem left_clip (hn : s.keys.Nodup) (hu : s.UsesCounted) (hr : ∀ x ∈ s.clips.clips, x.state = .retiring → 0 < x.useCount)
    {y : Clip} (hy : y ∈ s.left.clips.clips) : y.useCount = 0 ∧ y.state ≠ .retiring := by
  have hkeys := (leaves_left s).keys
  obtain ⟨x, hx, hxy⟩ := List.mem_map.mp (hkeys.subset (List.mem_map_of_mem hy))
  have htracks := tracks_left hn hu hx (hr x hx)
  have hfind : s.left.findClip x.id x.serial = some y := by
    obtain ⟨hid, hserial⟩ := Prod.mk.inj hxy
    rw [hid, hserial]
    exact findClip_of_mem (hn.sublist hkeys) hy
  refine ⟨congrArg Clip.useCount (htracks.same y hfind), fun e => ?_⟩
  by_cases hretiring : x.state = .retiring
  · rw [(htracks.goes hretiring rfl).1 y hfind] at e
    cases e
  by_cases hdeleting : x.state = .deleting
  · rw [htracks.deleting hdeleting y hfind] at e
    cases e
  obtain ⟨z, hz, hz', -⟩ := htracks.stays hretiring hdeleting
  rw [hfind] at hz
  cases hz
  exact hz' e

/-! ### The restart as a command -/

/-- The state after RESTART. -/
def State.restarted (s : State) : State := s.inEvent fun u => (u.counted 0).restart.answered 0 .restart .ok []

/-- The state in which the restart begins. -/
abbrev State.begun (s : State) : State := s.atEvent.counted 0

theorem exec_restart (h : s.hears 0) : exec (.restart 0) s = .next s.restarted :=
  event_answers (stn := 0) (kind := .restart) (fits := true) (body := fun s => (s.restart, .plain .ok))
    (g := State.restart) (data := []) h (.inr rfl) rfl rfl

theorem pages_inEvent (f : State → State) : (s.inEvent f).pages = (f s.atEvent).pages := rfl
theorem chan_inEvent (f : State → State) (c : Chan) : (s.inEvent f).chan c = (f s.atEvent).chan c := rfl
theorem fetchOut_inEvent (f : State → State) : (s.inEvent f).fetchOut = (f s.atEvent).fetchOut := rfl
theorem clips_inEvent (f : State → State) : (s.inEvent f).clips = { (f s.atEvent).clips with raised := false } := rfl

theorem restarted_pages : s.restarted.pages = s.begun.left.clearPins.pages := by
  rw [State.restarted, pages_inEvent, State.answered, writeAck_pages, restart_pages]

theorem restarted_clips : s.restarted.clips = { s.begun.left.clips with raised := false } := by
  rw [State.restarted, clips_inEvent, State.answered, writeAck_clips, restart_clips]

theorem restarted_arbiter : s.restarted.arbiter = .reset := by
  rw [State.restarted, inEvent_arbiter, State.answered, writeAck_arbiter, restart_arbiter]

theorem restarted_chan (c : Chan) : s.restarted.chan c = (s.begun.left.chan c).restart := by
  rw [State.restarted, chan_inEvent, State.chan, State.answered, writeAck_channels, ← State.chan, restart_chan]

theorem restarted_fetchOut : s.restarted.fetchOut = s.begun.left.fetchOut.filter fun r => !s.begun.left.isInFlight r := by
  rw [State.restarted, fetchOut_inEvent, State.answered, writeAck_fetchOut, restart_fetchOut]

theorem restarted_link (k : Station) : s.restarted.link k =
    if k = 0 then { Link.restart 0 (s.begun.link 0) with ack := doneAck .restart .ok [] }
    else Link.restart k (s.link k) := by
  rw [State.restarted, link_inEvent, State.answered, State.writeAck, link_modLink]
  split
  · next e =>
    subst e
    rw [restart_link]
  · next e =>
    rw [restart_link, link_counted, if_neg e]
    rfl

theorem restarted_findClip (i j : Nat) : s.restarted.findClip i j = s.begun.left.findClip i j := by
  rw [findClip_eq, restarted_clips, findClip_eq]

theorem left_chan (c : Chan) : { s.begun.left.chan c with staged := false } = { s.chan c with staged := false } :=
  (leaves_left s.begun).chans c

/-- A channel after a restart (R112, R129, R145). -/
theorem restarted_chan_eq (c : Chan) : s.restarted.chan c =
    { head := none, gang := .none, black := false, cues := [], staged := false, inFlight := []
      nextTag := (s.chan c).nextTag, lastShown := (s.chan c).lastShown, frameValid := false
      counts := (s.chan c).counts } := by
  have hrestart : ∀ ch : Channel, Channel.restart { ch with staged := false } = ch.restart := fun _ => rfl
  rw [restarted_chan, ← hrestart, left_chan]
  rfl

theorem left_fetchOut : s.left.fetchOut = s.fetchOut := frame_left s .fetchOut (by decide)

theorem left_isInFlight (r : FetchRequest) : s.begun.left.isInFlight r = s.isInFlight r := by
  have hflight : ∀ ch : Channel, ({ ch with staged := false } : Channel).inFlight = ch.inFlight := fun _ => rfl
  rw [State.isInFlight, ← hflight, left_chan, hflight, State.isInFlight]

theorem restarted_waiting : s.restarted.fetchOut =
    s.fetchOut.filter fun r => (s.chan r.channel).inFlight.all fun e => e.tag != r.tag := by
  rw [restarted_fetchOut, left_fetchOut]
  refine List.filter_congr fun r _ => ?_
  rw [left_isInFlight, State.isInFlight, List.not_any_eq_all_not]
  rfl

/-- What a restart leaves of the page store: the pins and the fetch holds are gone, and the scans are those left (R59). -/
theorem restarted_pages_eq : s.restarted.pages = { s.pages with
    scans := s.begun.left.pages.scans
    lists := s.pages.lists.map fun l => l.map fun p => { p with anchorPins := 0, fetchHolds := 0 } } := by
  have hclear : ∀ u : State, u.clearPins.pages = { u.pages with
      lists := u.pages.lists.map fun l => l.map fun p => { p with anchorPins := 0, fetchHolds := 0 } } := fun _ => rfl
  rw [restarted_pages, hclear, (leaves_left s.begun).pages]
  rfl

theorem restarted_pageList (a : Angle) :
    s.restarted.pageList a = (s.pageList a).map fun p => { p with anchorPins := 0, fetchHolds := 0 } := by
  rw [State.pageList, restarted_pages_eq]
  exact vector_map_get ..

/-- A link but link 0 after a restart (R175). -/
theorem restarted_link_ne (h : k ≠ 0) : s.restarted.link k =
    if (s.link k).enabled then { (s.link k).session with state := .down } else s.link k := by
  rw [restarted_link, if_neg h, Link.restart, if_neg h]
  rfl

/-- Link 0 after a restart, with the answer to it (R175). -/
theorem restarted_link_zero (h : (s.link 0).enabled = true) : s.restarted.link 0 =
    { (s.link 0).session with
      state := .down, toggleSeen := (s.link 0).toggleSeen
      ack := { state := .done, kind := some 88, result := some .ok, data := [] }
      counts := { (s.link 0).counts with commandsTaken := min ((s.link 0).counts.commandsTaken + 1) 4294967295 } } := by
  have he : (s.atEvent.link 0).enabled = true := h
  rw [restarted_link, if_pos rfl, link_counted, if_pos rfl, Link.restart, if_pos he, if_pos rfl]
  rfl

/-- A RETIRING clip goes with the restart, and the generation rises (R62, R74, R84). -/
theorem restart_retires (h : s.hears 0) {x : Clip} (hx : x ∈ s.clips.clips) (hr : x.state = .retiring)
    (hnone : ∀ y ∈ s.restarted.clips.clips, y.state ≠ .retiring) :
    s.restarted.clips.generation = (s.clips.generation + 1) % 65536 := by
  obtain ⟨-, -, hraises⟩ := kept_row rfl (exec_restart h)
  refine hraises fun e => ?_
  have hfields := List.mem_map_of_mem (f := fun c : Clip => { c with useCount := 0, scansPending := 0 }) hx
  rw [← State.tableFields, ← e] at hfields
  obtain ⟨y, hy, hyx⟩ := List.mem_map.mp hfields
  exact hnone y hy ((congrArg Clip.state hyx).trans hr)

/-- Settles O56: the channels leave CLIP one by one, and every other block takes its values of a restart. -/
theorem restartReturnsTheStationSide : Obligations.RestartReturnsTheStationSide := by
  intro s h
  have hexec := exec_restart h
  have hframe := frame_exec hexec
  refine ⟨s.restarted, hexec, hframe .timeBase (by decide), hframe .recorders (by decide), hframe .unknownAngles (by decide),
    hframe .ingestOut (by decide), hframe .unmatchedPartWide (by decide), hframe .curve (by decide),
    hframe .settings (by decide), ?_, fun a => ?_, fun a p hp => ?_, restarted_chan_eq, fun c => ?_, fun k => ?_,
    fun k c => ?_, ?_, ?_, fun k hk => restarted_link_ne hk, restarted_link_zero, ?_, ?_, ?_, restarted_waiting, ?_, ?_, ?_⟩
  · rw [restarted_pages_eq]
  · rw [restarted_pageList, List.map_map]
    rfl
  · rw [restarted_pageList] at hp
    obtain ⟨q, -, rfl⟩ := List.mem_map.mp hp
    exact ⟨rfl, rfl⟩
  · rw [State.holder, restarted_arbiter]
    exact vector_replicate_get ..
  · rw [State.pendingClaim, restarted_arbiter]
    exact vector_replicate_get ..
  · rw [State.coolDownRun, restarted_arbiter, Arbiter.reset, vector_replicate_get, vector_replicate_get]
  · rw [restarted_arbiter]
    rfl
  · rw [restarted_arbiter]
    rfl
  · rw [restarted_pages_eq]
  · rw [restarted_pages_eq]
  · rw [restarted_pages_eq]
  · rw [restarted_clips]
    exact (leaves_left s.begun).serialCounter
  · rw [restarted_clips]
    exact (leaves_left s.begun).openCounts
  · intro on hn hu
    have hn' : s.begun.keys.Nodup := hn
    have hu' : s.begun.UsesCounted := hu
    refine ⟨fun hr => ?_, fun hr => ?_⟩
    · obtain ⟨hpages, hclips⟩ := left_unretired (s := s.begun) hu' hr
      refine ⟨?_, ?_⟩
      · rw [restarted_clips, hclips]
        rfl
      · rw [restarted_pages_eq, hpages]
        rfl
    · have hleft : ∀ y ∈ s.restarted.clips.clips, y.useCount = 0 ∧ y.state ≠ .retiring := fun y hy => by
        rw [restarted_clips] at hy
        exact left_clip hn' hu' hr hy
      refine ⟨hleft, fun x hx hx' => ?_, fun x hx hstate => ?_⟩
      · have htracks := tracks_left (s := s.begun) hn' hu' hx (hr x hx)
        rw [← restarted_findClip] at htracks
        obtain ⟨hdeleting, hgone⟩ := htracks.goes hx' rfl
        refine ⟨restart_retires h hx hx' fun y hy => (hleft y hy).2, hgone, fun y hy => ?_⟩
        have hsame := htracks.same y hy
        rw [hdeleting y hy] at hsame
        exact hsame
      · have hnr : x.state ≠ .retiring ∧ x.state ≠ .deleting := by
          rcases hstate with e | e | e <;> rw [e] <;> exact ⟨nofun, nofun⟩
        have htracks := tracks_left (s := s.begun) hn' hu' hx (hr x hx)
        rw [← restarted_findClip] at htracks
        obtain ⟨y, hy, -⟩ := htracks.stays hnr.1 hnr.2
        refine ⟨y, hy, ?_⟩
        rw [htracks.same y hy]

end Sys2Proof.Machine
end
